-- ==== Sys2Proof/Word.lean ====
section
/-! DEFINITION. The data word and the key symbol of the block (spec/00_scope.md R10, R11, R13). -/

namespace Sys2Proof

/-- DATA_WIDTH and ADDR_WIDTH are both 16 bits (R10): a data word or a port address. -/
abbrev Word := BitVec 16

/-- A key symbol: one of the 256 byte values (R11, R104). -/
abbrev Key := BitVec 8

end Sys2Proof
end

