-- ==== Sys2Proof/Syntax.lean ====
section
/-! DEFINITION. Bus transactions (R70), the closed operation set (R71, R72) with every operand of the
data-word formats (R73 to R79), and the steps of the three agents (R18). -/

namespace Sys2Proof

/-- A bus transaction (R70): a direction, a 16-bit address, and a data word on WR only. -/
inductive Transaction where
  | rd (addr : Word)
  | wr (addr : Word) (data : Word)
deriving DecidableEq, Repr, Inhabited

/-- The operations of spec/opcode_table.json, one constructor per row, with the fields of the data word.
Bits that an operation ignores (R81) are operands too, so that no bit of a transaction is lost (log 10). -/
inductive Instr where
  /-- GETKEY, `RD 0x9000` (R210). -/
  | getkey
  /-- PLAYFREQ, `WR 0x9001`, word `tttt dddd ffff ffff` (R73). -/
  | playfreq (fcode : BitVec 8) (dcode : BitVec 4) (wtype : BitVec 4)
  /-- PLAYSMP, `WR 0x9002`, the whole word is the sample id (R74). -/
  | playsmp (id : Word)
  /-- SHOWKEY, `WR 0x9003`, word `xxxx xxxx kkkk kkkk` (R75). -/
  | showkey (key : Key) (ignored : BitVec 8)
  /-- CFGFREQ, `WR 0x9004`, a two-phase word (R76). -/
  | cfgfreq (word : Word)
  /-- RDFREQ, `RD 0x9004` (R216). -/
  | rdfreq
  /-- CFGSMP, `WR 0x9005`, a two-phase word (R76). -/
  | cfgsmp (word : Word)
  /-- CFGCOL, `WR 0x9006`, a two-phase word (R76). -/
  | cfgcol (word : Word)
  /-- SMPCOUNT, `RD 0x9007` (R219). -/
  | smpcount
  /-- LISTSMP, `WR 0x9008`, the whole word is ignored (R220). -/
  | listsmp (ignored : Word)
  /-- PLAYCOMB, `WR 0x9009`, word `iiii iiii ffff ffff` (R78). -/
  | playcomb (fcode : BitVec 8) (sid : BitVec 8)
  /-- SETMODE, `WR 0x900A`, word `tttt mmmm kkkk kkkk` (R79). -/
  | setmode (key : Key) (mode : BitVec 4) (wtype : BitVec 4)
  /-- UNKNOWN_RD, a read of any other address (R71 row 13, R223). -/
  | unknownRd (addr : Word)
  /-- UNKNOWN_WR, a write to any other address, its word ignored (R71 row 14, R223). -/
  | unknownWr (addr : Word) (ignored : Word)
deriving DecidableEq, Repr

/-- One step of one agent (R18): a bus transaction, an audio sample, or a frame tick. -/
inductive Input where
  | bus (t : Transaction)
  | sample
  | frame
deriving DecidableEq, Repr, Inhabited

end Sys2Proof
end

