-- ==== Sys2Proof/WellFormed.lean ====
section
/-! DEFINITION. Which instruction terms stand for a transaction: every operand has its field's width by type, so
the checks left are that an UNKNOWN operation carries an address no earlier row of R71 matches (R81). -/

namespace Sys2Proof

/-- The read ports: 0x9000, 0x9004, 0x9007 (R81). -/
def readPorts : List Word := [0x9000, 0x9004, 0x9007]

/-- The nine write ports: 0x9001..0x9006 and 0x9008..0x900A (R81). -/
def writePorts : List Word :=
  [0x9001, 0x9002, 0x9003, 0x9004, 0x9005, 0x9006, 0x9008, 0x9009, 0x900A]

/-- The check on instruction terms. -/
def Instr.wellFormed : Instr → Bool
  | .unknownRd a => !readPorts.contains a
  | .unknownWr a _ => !writePorts.contains a
  | .getkey | .playfreq _ _ _ | .playsmp _ | .showkey _ _ | .cfgfreq _ | .rdfreq | .cfgsmp _ | .cfgcol _
  | .smpcount | .listsmp _ | .playcomb _ _ | .setmode _ _ _ => true

end Sys2Proof
end

