-- ==== Sys2Proof/Decode.lean ====
section
/-! DEFINITION. Selectors and the decoder of spec/30_encoding.md, total on transactions (R71, R81), the encoder from
the same formats, the opcode table as data, and the numbering of a transaction's bits (log 9). -/

namespace Sys2Proof

/-- The 17-bit selector: the direction bit above the address (R71). -/
def Transaction.sel : Transaction → BitVec 17
  | .rd a => 0#1 ++ a
  | .wr a _ => 1#1 ++ a

/-- Decoding of a read (R71 rows 1, 6, 9 and 13). -/
def decodeRead (a : Word) : Instr :=
  if a = 0x9000 then .getkey
  else if a = 0x9004 then .rdfreq
  else if a = 0x9007 then .smpcount
  else .unknownRd a

/-- Decoding of a write (R71 rows 2 to 5, 7, 8, 10 to 12 and 14), with the word formats of R73 to R79. -/
def decodeWrite (a w : Word) : Instr :=
  if a = 0x9001 then .playfreq (w.extractLsb' 0 8) (w.extractLsb' 8 4) (w.extractLsb' 12 4)
  else if a = 0x9002 then .playsmp w
  else if a = 0x9003 then .showkey (w.extractLsb' 0 8) (w.extractLsb' 8 8)
  else if a = 0x9004 then .cfgfreq w
  else if a = 0x9005 then .cfgsmp w
  else if a = 0x9006 then .cfgcol w
  else if a = 0x9008 then .listsmp w
  else if a = 0x9009 then .playcomb (w.extractLsb' 0 8) (w.extractLsb' 8 8)
  else if a = 0x900A then .setmode (w.extractLsb' 0 8) (w.extractLsb' 8 4) (w.extractLsb' 12 4)
  else .unknownWr a w

/-- The decoder of a transaction: total, no encoding is illegal (R71, R81). -/
def decode : Transaction → Instr
  | .rd a => decodeRead a
  | .wr a w => decodeWrite a w

/-- The encoder: the transaction of an instruction (R71, R73 to R79). -/
def encode : Instr → Transaction
  | .getkey => .rd 0x9000
  | .playfreq f d t => .wr 0x9001 (t ++ d ++ f)
  | .playsmp id => .wr 0x9002 id
  | .showkey k x => .wr 0x9003 (x ++ k)
  | .cfgfreq w => .wr 0x9004 w
  | .rdfreq => .rd 0x9004
  | .cfgsmp w => .wr 0x9005 w
  | .cfgcol w => .wr 0x9006 w
  | .smpcount => .rd 0x9007
  | .listsmp w => .wr 0x9008 w
  | .playcomb f i => .wr 0x9009 (i ++ f)
  | .setmode k m t => .wr 0x900A (t ++ m ++ k)
  | .unknownRd a => .rd a
  | .unknownWr a w => .wr a w

/-- A row of the opcode table (R71): a selector matches when `sel AND mask = match`. -/
structure OpcodeRow where
  mnemonic : String
  pattern : BitVec 17
  mask : BitVec 17
deriving DecidableEq, Repr

/-- The table of R71, in its order. -/
def opcodeTable : List OpcodeRow :=
  [⟨"GETKEY", 0x09000, 0x1FFFF⟩, ⟨"PLAYFREQ", 0x19001, 0x1FFFF⟩, ⟨"PLAYSMP", 0x19002, 0x1FFFF⟩,
   ⟨"SHOWKEY", 0x19003, 0x1FFFF⟩, ⟨"CFGFREQ", 0x19004, 0x1FFFF⟩, ⟨"RDFREQ", 0x09004, 0x1FFFF⟩,
   ⟨"CFGSMP", 0x19005, 0x1FFFF⟩, ⟨"CFGCOL", 0x19006, 0x1FFFF⟩, ⟨"SMPCOUNT", 0x09007, 0x1FFFF⟩,
   ⟨"LISTSMP", 0x19008, 0x1FFFF⟩, ⟨"PLAYCOMB", 0x19009, 0x1FFFF⟩, ⟨"SETMODE", 0x1900A, 0x1FFFF⟩,
   ⟨"UNKNOWN_RD", 0x00000, 0x10000⟩, ⟨"UNKNOWN_WR", 0x10000, 0x10000⟩]

/-- Does a selector match a row (R71)? -/
def OpcodeRow.accepts (r : OpcodeRow) (sel : BitVec 17) : Bool :=
  sel &&& r.mask == r.pattern

/-- The row of an instruction, by its mnemonic. -/
def Instr.mnemonic : Instr → String
  | .getkey => "GETKEY"
  | .playfreq _ _ _ => "PLAYFREQ"
  | .playsmp _ => "PLAYSMP"
  | .showkey _ _ => "SHOWKEY"
  | .cfgfreq _ => "CFGFREQ"
  | .rdfreq => "RDFREQ"
  | .cfgsmp _ => "CFGSMP"
  | .cfgcol _ => "CFGCOL"
  | .smpcount => "SMPCOUNT"
  | .listsmp _ => "LISTSMP"
  | .playcomb _ _ => "PLAYCOMB"
  | .setmode _ _ _ => "SETMODE"
  | .unknownRd _ => "UNKNOWN_RD"
  | .unknownWr _ _ => "UNKNOWN_WR"

/-- A transaction from its bits: the selector in bits 16..0 (R71) and the data word in bits 32..17 (log 9).
A read has no data word, so bits 32..17 are not looked at there (R70). -/
def transactionOfBits (w : Nat) : Transaction :=
  if w.testBit 16 then .wr (BitVec.ofNat 16 w) (BitVec.ofNat 16 (w >>> 17)) else .rd (BitVec.ofNat 16 w)

/-- The bits of a transaction, in the numbering of `transactionOfBits`. -/
def Transaction.bits : Transaction → Nat
  | .rd a => a.toNat
  | .wr a w => w.toNat <<< 17 + 2 ^ 16 + a.toNat

/-- Why a number is not decoded: the only reason is that it is no transaction. -/
inductive DecodeError where
  /-- The number has a bit above bit 32, which no transaction has (R82). -/
  | tooWide
deriving DecidableEq, Repr

/-- The decoder on a number: rejects by name what is no transaction, decodes every transaction. -/
def decodeBits (w : Nat) : Except DecodeError Instr :=
  if w < 2 ^ 33 then .ok (decode (transactionOfBits w)) else .error .tooWide

/-- The instruction the decoder reads from an opcode-table word: bits from nbits up are 0. -/
def decodeTableWord (nbits w : Nat) : Option Instr :=
  match decodeBits (w % 2 ^ nbits) with
  | .ok i => some i
  | .error _ => none

end Sys2Proof
end

