-- ==== Sys2Proof/Config.lean ====
section
/-! DEFINITION. The implementation parameters of spec/00_scope.md R10, the numerics field SIN of R149, and the
free values: constants without a body, of which nothing can be computed or proved. -/

namespace Sys2Proof.Config

/-- SAMPLE_RATE R (R10), in samples per second. -/
def sampleRate : Nat := 44100

/-- FADE F = R/50 = 882 samples (R10, R143). -/
def fade : Nat := sampleRate / 50

/-- MASTER, the fixed attenuation (R10). -/
def master : Rat := 3 / 10

/-- VOLUME, the volume of every trigger (R10). -/
def volume : Rat := 1

/-- HL_RAW, the frames of a raw keypress (R10). -/
def hlRaw : Nat := 30

/-- HL_SHOW, the frames of a SHOWKEY (R10). -/
def hlShow : Nat := 50

/-- FALLBACK_FREQ in Hz (R10, R113). -/
def fallbackFreq : Rat := 220

/-- FALLBACK_SAMPLES (R10, R113). -/
def fallbackSamples : Nat := 4410

/-- KEY_NOTE_SAMPLES (R10, R214, R221). -/
def keyNoteSamples : Nat := 4410

/-- The parameters that differ from run to run, fixed for a run and written by no operation (R28, R291).
They are an argument of the model: State holds one of these and no step changes it (log 3). -/
structure Params where
  /-- N_SAMPLES, OPEN, 0..65535 (R10). -/
  nSamples : Word
  /-- AUDIO_READY, default true (R10, R265). -/
  audioReady : Bool := true
  /-- VISUAL_READY, default true (R10, R265). -/
  visualReady : Bool := true
  /-- BUS_DELAY, 0 or 1 CPU cycles; no rule depends on it (R305). -/
  busDelay : Fin 2 := 0
  /-- FRAME_PERIOD, OPEN; no rule depends on it (R187, R311). The spec gives it no type and no unit; that it is a natural
  number is the model's choice (log 18). -/
  framePeriod : Nat
deriving DecidableEq, Repr

/-- N_SAMPLES of the reset state: OPEN, so no value (R10; log 3). -/
opaque nSamples : Word

/-- FRAME_PERIOD of the reset state: OPEN, so no value (R10; log 3); its type is the model's choice (log 18). -/
opaque framePeriod : Nat

/-- The parameters of the reset state: R10's defaults, and no value for the two OPEN ones (log 3). -/
def params : Params where
  nSamples := nSamples
  framePeriod := framePeriod

/-- FREE VALUE: the agent step the environment chooses when no input is pending (R56, any interleaving; log 1). -/
opaque freeInput : Nat → Input

/-- FREE VALUE: the host keyboard's answer when none is pending; 0 means no key (R210; log 4). -/
opaque freeKey : Nat → Key

/-- FREE VALUE: the order of the un-highlight events of one FRAME step, lower rank first (R185; log 5). -/
opaque unhighlightRank : Nat → Key → Nat

/-- The numerics field SIN with exactly the properties a model may assume of it (R149).
It is an argument of the value of an audio sample, never part of State (log 6). -/
structure Numerics where
  /-- sin(2π·θ) for a rational θ in [0,1). -/
  SIN : Rat → Real
  zero : SIN 0 = 0
  quarter : SIN (1 / 4) = 1
  half : SIN (1 / 2) = 0
  threeQuarters : SIN (3 / 4) = -1
  bounded : ∀ θ : Rat, 0 ≤ θ → θ < 1 → |SIN θ| ≤ 1
  odd : ∀ θ : Rat, 0 < θ → θ < 1 → SIN (1 - θ) = -SIN θ

end Sys2Proof.Config
end

