-- ==== Sys2Proof/Machine/State.lean ====
section
/-! DEFINITION. The state of the block as plain data (spec/10_state.md), its output events, the degradation classes
of R260, and the reset state (R32, R290). -/

namespace Sys2Proof.Machine

/-- The one voice (R20). -/
structure Voice where
  active : Bool
  /-- Oscillator frequency after shaping, in Hz. -/
  freq : Rat
  /-- Phase as a fraction of a turn. -/
  theta : Rat
  vol : Rat
  /-- Total duration in samples. -/
  total : Nat
  /-- Samples rendered since the trigger. -/
  elapsed : Nat
deriving DecidableEq, Repr

/-- The voice at reset (R32). -/
def Voice.reset : Voice := ⟨false, 0, 0, 0, 0, 0⟩

/-- The audio mode (R105). -/
inductive Mode where
  | frequency | sample | both | reserved
deriving DecidableEq, Repr

/-- A wave type after the reduction mod 4 (R102); 1, 2 and 3 have no waveform name (R155). -/
abbrev WaveType := Fin 4

/-- A key's binding: five optional fields (R22). -/
structure Binding where
  freq : Option Word := none
  sample : Option Word := none
  color : Option (BitVec 8) := none
  mode : Option Mode := none
  wave : Option WaveType := none
deriving DecidableEq, Repr

/-- The exact value of one mono audio sample (R144, R149): a rational, or `gain · SIN(theta)` where no property of
SIN that R149 lists settles it (log 6). -/
inductive AudioValue where
  | exact (v : Rat)
  | scaled (gain theta : Rat)
deriving DecidableEq, Repr

/-- The output events (R30). -/
inductive Event where
  /-- One sample, the same value on the left and the right channel (R148). -/
  | audioOut (v : AudioValue)
  | playSample (id : Word)
  | highlight (k : Key) (on : Bool)
  | color (k : Key) (r g b : Nat)
  | listSamples
deriving DecidableEq, Repr

/-- The degradation classes DG1 to DG6 (R260). -/
inductive Degrade where
  /-- DG1. -/
  | invalidAddress
  /-- DG2. -/
  | sampleRange
  /-- DG3. -/
  | waveModeRange
  /-- DG4. -/
  | backendUninit
  /-- DG5. -/
  | cursorMisuse
  /-- DG6, which nothing in the block raises (R152, R260). -/
  | frequencyRange
deriving DecidableEq, Repr

/-- The block's state and, below the line, the fields that are the model's own. -/
structure State where
  voice : Voice
  /-- The binding register file, one entry per key symbol (R22). -/
  bind : Vector Binding 256
  /-- The highlight timers, one entry per key symbol (R23). -/
  hl : Vector (Option Nat) 256
  /-- The configuration cursor (R25). -/
  cursor : Option Key
  /-- The output event stream, oldest first (R30). -/
  out : List Event
  /-- The run's parameters, written by no step (R28; log 3). -/
  params : Config.Params
  -- ------------------------------------------------------------------ the model's own fields
  /-- What the last BUS step answered: a word on RD, none on WR (R225; log 7). -/
  busResult : Option Word
  /-- The pending agent steps, next first: any list, any interleaving (R56; log 1). -/
  inputs : List Input
  /-- The host keyboard's pending answers, next first; 0 means no key (R210; log 4). -/
  keyAnswers : List Key
  /-- How many free values were taken so far (logs 1, 4 and 5). -/
  drawn : Nat
  /-- The trace of absorbed failures, oldest first; no rule reads it (R34, R260; log 8). -/
  degrades : List Degrade
deriving DecidableEq, Repr

/-- The block raises no exception (R261), so there is no fault and nobody raises one. -/
inductive Fault
deriving DecidableEq, Repr

/-- Why the model answers nothing. -/
inductive Refusal where
  /-- Raised by an arm of `exec` whose instruction has no meaning yet (safe); no arm is left that does. -/
  | notModelled (mnemonic : String)
deriving DecidableEq, Repr

/-- The state at the start of a run with the given parameters (R32, R290, R291, R292). -/
def State.resetWith (p : Config.Params) : State where
  voice := Voice.reset
  bind := Vector.replicate 256 {}
  hl := Vector.replicate 256 none
  cursor := none
  out := []
  params := p
  busResult := none
  inputs := []
  keyAnswers := []
  drawn := 0
  degrades := []

/-- The reset state: R10's default parameters, no value for the OPEN ones (log 3). -/
def State.reset : State := State.resetWith Config.params

end Sys2Proof.Machine
end

