-- ==== Sys2Proof/Machine/Flags.lean ====
section
/-! DEFINITION. The block's only flag, `voice.active` (spec/10_state.md R26): how the trigger sets it and how the
SAMPLE step clears it. There are no condition codes. -/

namespace Sys2Proof.Machine

/-- After a trigger of T samples the voice is active when T > 0 (R141). -/
def activeAfterTrigger (total : Nat) : Bool := decide (0 < total)

/-- After an active SAMPLE step at `elapsed` the flag is cleared when `elapsed + 1 = total` (R144). -/
def activeAfterSample (elapsed total : Nat) : Bool := decide (elapsed + 1 ≠ total)

end Sys2Proof.Machine
end

