-- ==== Sys2Proof/Machine/Operands.lean ====
section
/-! DEFINITION. The field decoders of spec/40_decoder.md R100 to R107, and the defaults of unset fields (R31). -/

namespace Sys2Proof.Machine

/-- Frequency code to Hz (R100). -/
def freqOf (fc : BitVec 8) : Nat := 220 + 10 * fc.toNat

/-- Duration code to samples (R101). -/
def samplesOf (dc : BitVec 4) : Nat := (1 + dc.toNat) * (Config.sampleRate / 10)

/-- Wave type, taken mod 4 (R102). -/
def waveOf (t : BitVec 4) : WaveType := Fin.ofNat 4 t.toNat

/-- Key normalisation: the ASCII upper-case letters 0x41..0x5A get 0x20 added (R103). -/
def lower (c : Key) : Key := if 0x41 ≤ c ∧ c ≤ 0x5A then c + 0x20 else c

/-- Audio mode, taken mod 4 (R105). -/
def modeOf (m : BitVec 4) : Mode :=
  match Fin.ofNat 4 m.toNat with
  | 0 => .frequency
  | 1 => .sample
  | 2 => .both
  | 3 => .reserved

/-- RGB-332 decode: red c[7:5] × 36, green c[4:2] × 36, blue c[1:0] × 85 (R77, R106). -/
def rgb (c : BitVec 8) : Nat × Nat × Nat :=
  (36 * (c.extractLsb' 5 3).toNat, 36 * (c.extractLsb' 2 3).toNat, 85 * (c.extractLsb' 0 2).toNat)

/-- The host-side RGB quantiser q (R107); the block itself never encodes. -/
def quantise (r g b : Nat) : BitVec 8 :=
  BitVec.ofNat 8 ((min 7 (r / 36) <<< 5) ||| (min 7 (g / 36) <<< 2) ||| min 3 (b / 85))

/-- The mode a key sounds in: Frequency when unset (R31). -/
def Binding.modeOrDefault (b : Binding) : Mode := b.mode.getD .frequency

/-- The wave type a key sounds with: 0 when unset (R31). -/
def Binding.waveOrDefault (b : Binding) : WaveType := b.wave.getD 0

/-- The color a key shows: full white, the triple and not a byte, when unset (R31, R184).
No operation reads it; it is what the visual sink shows. -/
def Binding.shownColor (b : Binding) : Nat × Nat × Nat :=
  match b.color with
  | some c => rgb c
  | none => (255, 255, 255)

/-- DG3: a wave type or mode field of 4 or more (R260). -/
def outOfRangeField (t : BitVec 4) : Bool := decide (4 ≤ t.toNat)

end Sys2Proof.Machine
end

