-- ==== Sys2Proof/Machine/Ops.lean ====
section
/-! DEFINITION. The named operations over the state that every meaning uses: events, degradations, bus answers, the
register files, the cursor, and the inputs. The block takes no exception and returns from none (R261, R264); what it
has in their place is `State.degrade`. -/

namespace Sys2Proof.Machine

/-- `emit E` (R14, R30). -/
def State.emit (s : State) (e : Event) : State := { s with out := s.out ++ [e] }

/-- `degrade <class>` (R14, R260): the failure is absorbed, only the model's trace records it (R34; log 8). -/
def State.degrade (s : State) (d : Degrade) : State := { s with degrades := s.degrades ++ [d] }

/-- `degrade` under a condition. -/
def State.degradeIf (s : State) (b : Bool) (d : Degrade) : State := if b then s.degrade d else s

/-- An event for the audio backend: dropped, as DG4, when AUDIO_READY = false (R265). -/
def State.emitAudio (s : State) (e : Event) : State :=
  if s.params.audioReady then s.emit e else s.degrade .backendUninit

/-- An event for the visual backend: dropped, as DG4, when VISUAL_READY = false (R265). -/
def State.emitVisual (s : State) (e : Event) : State :=
  if s.params.visualReady then s.emit e else s.degrade .backendUninit

/-- `return w`: the word a bus read answers (R14, R225). -/
def State.answer (s : State) (w : Word) : State := { s with busResult := some w }

/-- The end of a bus write, which answers no word (R70; log 7). -/
def State.acknowledge (s : State) : State := { s with busResult := none }

/-- `bind[k]` (R22). -/
def State.binding (s : State) (k : Key) : Binding := s.bind[k.toNat]

/-- `bind[k] <- b` (R22). -/
def State.setBinding (s : State) (k : Key) (b : Binding) : State :=
  { s with bind := s.bind.set k.toNat b }

/-- `hl[k]` (R23). -/
def State.timer (s : State) (k : Key) : Option Nat := s.hl[k.toNat]

/-- `hl[k] <- n` (R23). -/
def State.setTimer (s : State) (k : Key) (n : Option Nat) : State :=
  { s with hl := s.hl.set k.toNat n }

/-- `isHighlighted(k)` (R182). -/
def State.isHighlighted (s : State) (k : Key) : Bool := (s.timer k).isSome

/-- `cursor <- c` (R25). -/
def State.setCursor (s : State) (c : Option Key) : State := { s with cursor := c }

/-- `voice <- v`: all six fields in one step (R141). -/
def State.setVoice (s : State) (v : Voice) : State := { s with voice := v }

/-- The host keyboard's answer to a draw, 0 for no key: the next pending one, else a free value (R210; log 4). -/
def State.drawKey (s : State) : Key × State :=
  match s.keyAnswers with
  | c :: rest => (c, { s with keyAnswers := rest })
  | [] => (Config.freeKey s.drawn, { s with drawn := s.drawn + 1 })

/-- The next agent step: the next pending one, else the environment's free choice (R56; log 1). -/
def State.takeInput (s : State) : Input × State :=
  match s.inputs with
  | i :: rest => (i, { s with inputs := rest })
  | [] => (Config.freeInput s.drawn, { s with drawn := s.drawn + 1 })

/-- The 256 key symbols, in no order that matters. -/
def allKeys : List Key := (List.range 256).map (BitVec.ofNat 8)

end Sys2Proof.Machine
end

