-- ==== Sys2Proof/Machine/KeyTracker.lean ====
section
/-! DEFINITION. The key-state tracker of spec/42_key_tracker.md: assignments (R180), highlight triggers (R183) and the
FRAME step (R185). -/

namespace Sys2Proof.Machine

/-- `assignFrequency(k, hz)` (R180). -/
def State.assignFrequency (s : State) (k : Key) (hz : Word) : State :=
  s.setBinding k { s.binding k with freq := some hz }

/-- `assignSample(k, id)`, unchecked (R180, R181). -/
def State.assignSample (s : State) (k : Key) (id : Word) : State :=
  s.setBinding k { s.binding k with sample := some id }

/-- `assignColor(k, c)` and its Color event (R180, R184). -/
def State.assignColor (s : State) (k : Key) (c : BitVec 8) : State :=
  (s.setBinding k { s.binding k with color := some c }).emitVisual
    (.color k (rgb c).1 (rgb c).2.1 (rgb c).2.2)

/-- `assignMode(k, m, wt)` (R180). -/
def State.assignMode (s : State) (k : Key) (m : Mode) (wt : WaveType) : State :=
  s.setBinding k { s.binding k with mode := some m, wave := some wt }

/-- `triggerHighlight(k, N)`: set, not added and not the maximum (R183). -/
def State.triggerHighlight (s : State) (k : Key) (n : Nat) : State :=
  (s.setTimer k (some n)).emitVisual (.highlight k true)

/-- One timer after a tick (R185): a count above 1 goes down, any other ends. -/
def tickTimer : Option Nat → Option Nat
  | some n => if 1 < n then some (n - 1) else none
  | none => none

/-- Does a timer end at the next tick (R185)? -/
def timerEnds : Option Nat → Bool
  | some n => decide (n ≤ 1)
  | none => false

/-- The whole timer file after a tick; through lists, so that the kernel can evaluate it. -/
def tickAll (hl : Vector (Option Nat) 256) : Vector (Option Nat) 256 :=
  ⟨(hl.toList.map tickTimer).toArray, by simp⟩

/-- The keys whose timers end at the next tick. -/
def State.expiring (s : State) : List Key :=
  ((allKeys.zip s.hl.toList).filter fun p => timerEnds p.2).map Prod.fst

/-- The order of their events is unspecified: the free rank at the current draw decides (R185; log 5). -/
def State.expiringInOrder (s : State) : List Key :=
  s.expiring.insertionSort fun a b => Config.unhighlightRank s.drawn a ≤ Config.unhighlightRank s.drawn b

/-- Emit the one-time un-highlight of each key in turn (R185). -/
def State.unhighlightAll (s : State) (ks : List Key) : State :=
  ks.foldl (fun t k => t.emitVisual (.highlight k false)) s

/-- The FRAME step (R185). The draw counter moves by the number of timers that end (log 5). -/
def State.frameStep (s : State) : State :=
  ({ s with hl := tickAll s.hl, drawn := s.drawn + s.expiring.length }).unhighlightAll s.expiringInOrder

end Sys2Proof.Machine
end

