-- ==== Sys2Proof/Machine/Oscillator.lean ====
section
/-! DEFINITION. The audio datapath of spec/41_oscillator.md: trigger (R141), envelope (R143), the SAMPLE step (R144)
and the waveform shaper (R150). All arithmetic is exact over the rationals (R13). -/

namespace Sys2Proof.Machine

/-- `frac(x) = x - floor(x)` (R13). -/
def frac (x : Rat) : Rat := x - (x.floor : Rat)

/-- `trigger(f, T, vol)`: all six fields at once, or nothing, as DG4, when AUDIO_READY = false (R141, R265). -/
def State.trigger (s : State) (f : Rat) (T : Nat) (vol : Rat) : State :=
  if s.params.audioReady then s.setVoice ⟨activeAfterTrigger T, f, 0, vol, T, 0⟩
  else s.degrade .backendUninit

/-- The envelope `min(1, n/F, (T - n)/F)` (R143). -/
def env (n T : Nat) : Rat :=
  min 1 (min ((n : Rat) / (Config.fade : Rat)) (((T : Rat) - (n : Rat)) / (Config.fade : Rat)))

/-- The phase after one rendered sample (R142). -/
def nextTheta (theta freq : Rat) : Rat := frac (theta + freq / (Config.sampleRate : Rat))

/-- `SIN(theta) · gain`, exact at the quarter turns and where the gain is 0, symbolic elsewhere (R149; log 6). -/
def AudioValue.ofSine (theta gain : Rat) : AudioValue :=
  if gain = 0 ∨ theta = 0 ∨ theta = 1 / 2 then .exact 0
  else if theta = 1 / 4 then .exact gain
  else if theta = 3 / 4 then .exact (-gain)
  else .scaled gain theta

/-- The real number an audio value stands for, under any SIN that R149 allows. -/
def AudioValue.value (num : Config.Numerics) : AudioValue → Real
  | .exact v => (v : Real)
  | .scaled gain theta => num.SIN theta * (gain : Real)

/-- Left and right channel carry the same value (R148). -/
def AudioValue.channels (v : AudioValue) : AudioValue × AudioValue := (v, v)

/-- The value an active voice renders, from the phase and count before the advance (R144). -/
def Voice.sampleValue (v : Voice) : AudioValue :=
  .ofSine v.theta (v.vol * env v.elapsed v.total * Config.master)

/-- An active voice after one rendered sample (R144). -/
def Voice.advance (v : Voice) : Voice :=
  { v with
    theta := nextTheta v.theta v.freq
    elapsed := v.elapsed + 1
    active := activeAfterSample v.elapsed v.total }

/-- The SAMPLE step (R144). With AUDIO_READY = false no SAMPLE step occurs (R265): the input is consumed and nothing
happens (log 11). -/
def State.sampleStep (s : State) : State :=
  if s.params.audioReady then
    if s.voice.active then (s.emit (.audioOut s.voice.sampleValue)).setVoice s.voice.advance
    else s.emit (.audioOut (.exact 0))
  else s

/-- The waveform shaper (R150): it adjusts frequency or duration and never the wave. -/
def shape (f : Rat) (wt : WaveType) (T : Nat) : Rat × Nat :=
  match wt with
  | 0 => (f, T)
  | 1 => (f, 4 * T / 5)
  | 2 => (11 * f / 10, T)
  | 3 => (9 * f / 10, T)

/-- A voice of a shaped frequency and duration at VOLUME (R211, R214). -/
def State.triggerShaped (s : State) (f : Rat) (wt : WaveType) (T : Nat) : State :=
  s.trigger (shape f wt T).1 (shape f wt T).2 Config.volume

end Sys2Proof.Machine
end

