-- ==== Sys2Proof/Machine/Protocol.lean ====
section
/-! DEFINITION. The two-phase protocol (spec/40_decoder.md R110), the sample request (R113) and the key sound (R214). -/

namespace Sys2Proof.Machine

/-- `twoPhase(p, w)` (R110), the port given by the assignment that its completing write performs. -/
def State.twoPhase (s : State) (assign : State → Key → Word → State) (w : Word) : State :=
  match s.cursor with
  | none =>
    if w.extractLsb' 8 8 = 0 then s.setCursor (some (lower (w.extractLsb' 0 8)))
    else s.degrade .cursorMisuse
  | some k => (assign s k w).setCursor none

/-- `playSample(id)`: a request to the backend, or the fallback tone (R113). -/
def State.playSample (s : State) (id : Word) : State :=
  if id.toNat < s.params.nSamples.toNat then s.emitAudio (.playSample id)
  else (s.degrade .sampleRange).trigger Config.fallbackFreq Config.fallbackSamples Config.volume

/-- The sample part of a key's sound: modes Sample and Both (R214). -/
def State.keySamplePart (s : State) (b : Binding) : State :=
  match b.modeOrDefault, b.sample with
  | .sample, some id | .both, some id => s.playSample id
  | .sample, none | .both, none | .frequency, _ | .reserved, _ => s

/-- The frequency part of a key's sound: modes Frequency and Both (R214). -/
def State.keyFrequencyPart (s : State) (b : Binding) : State :=
  match b.modeOrDefault, b.freq with
  | .frequency, some f | .both, some f => s.triggerShaped (f.toNat : Rat) b.waveOrDefault Config.keyNoteSamples
  | .frequency, none | .both, none | .sample, _ | .reserved, _ => s

/-- `keySound(k)`: the sample part first, then the frequency part (R214, R263). -/
def State.keySound (s : State) (k : Key) : State :=
  (s.keySamplePart (s.binding k)).keyFrequencyPart (s.binding k)

end Sys2Proof.Machine
end

