-- ==== Sys2Proof/Machine/PortOps.lean ====
section
/-! DEFINITION. The meaning of every bus operation, one definition each (spec/43_port_ops.md). -/

namespace Sys2Proof.Machine

abbrev Result := Host.Outcome State Fault Refusal

/-- GETKEY (R210): the raw code is answered, the lower-cased key is highlighted. -/
def execGetkey (s : State) : Result :=
  .next (if s.drawKey.1 = 0 then s.drawKey.2.answer 0
    else (s.drawKey.2.triggerHighlight (lower s.drawKey.1) Config.hlRaw).answer (s.drawKey.1.setWidth 16))

/-- PLAYFREQ (R211). -/
def execPlayfreq (fcode : BitVec 8) (dcode wtype : BitVec 4) (s : State) : Result :=
  .next (((s.degradeIf (outOfRangeField wtype) .waveModeRange).triggerShaped
    (freqOf fcode : Rat) (waveOf wtype) (samplesOf dcode)).acknowledge)

/-- PLAYSMP (R212). -/
def execPlaysmp (id : Word) (s : State) : Result := .next (s.playSample id).acknowledge

/-- SHOWKEY (R213): the highlight before the sound; the upper byte is ignored. -/
def execShowkey (key : Key) (_ignored : BitVec 8) (s : State) : Result :=
  .next (((s.triggerHighlight (lower key) Config.hlShow).keySound (lower key)).acknowledge)

/-- CFGFREQ (R215). -/
def execCfgfreq (w : Word) (s : State) : Result :=
  .next (s.twoPhase State.assignFrequency w).acknowledge

/-- The word RDFREQ answers (R216). -/
def State.pendingFrequency (s : State) : Word :=
  match s.cursor with
  | some k => (s.binding k).freq.getD 0
  | none => 0

/-- RDFREQ (R216): no side effect, the cursor stays. -/
def execRdfreq (s : State) : Result := .next (s.answer s.pendingFrequency)

/-- CFGSMP (R217). -/
def execCfgsmp (w : Word) (s : State) : Result :=
  .next (s.twoPhase State.assignSample w).acknowledge

/-- CFGCOL (R218): the color value is w[7:0]. -/
def execCfgcol (w : Word) (s : State) : Result :=
  .next (s.twoPhase (fun t k v => t.assignColor k (v.extractLsb' 0 8)) w).acknowledge

/-- SMPCOUNT (R219). -/
def execSmpcount (s : State) : Result := .next (s.answer s.params.nSamples)

/-- LISTSMP (R220): one event whatever the word; no backend readiness drops it (R265). -/
def execListsmp (_ignored : Word) (s : State) : Result := .next (s.emit .listSamples).acknowledge

/-- PLAYCOMB (R221): the sample part first, then the coded frequency, unshaped. -/
def execPlaycomb (fcode sid : BitVec 8) (s : State) : Result :=
  .next (((s.playSample (sid.setWidth 16)).trigger (freqOf fcode : Rat) Config.keyNoteSamples
    Config.volume).acknowledge)

/-- SETMODE (R222). -/
def execSetmode (key : Key) (mode wtype : BitVec 4) (s : State) : Result :=
  .next (((s.degradeIf (outOfRangeField mode || outOfRangeField wtype) .waveModeRange).assignMode
    (lower key) (modeOf mode) (waveOf wtype)).acknowledge)

/-- UNKNOWN_RD (R223). -/
def execUnknownRd (_addr : Word) (s : State) : Result := .next ((s.degrade .invalidAddress).answer 0)

/-- UNKNOWN_WR (R223). -/
def execUnknownWr (_addr _ignored : Word) (s : State) : Result :=
  .next (s.degrade .invalidAddress).acknowledge

end Sys2Proof.Machine
end

