-- ==== Sys2Proof/Machine/Dispatch.lean ====
section
/-! DEFINITION. The dispatcher (spec/43_port_ops.md R225): one arm per operation. -/

namespace Sys2Proof.Machine

def exec (i : Instr) (s : State) : Host.Outcome State Fault Refusal :=
  match i with
  | .getkey => Sys2Proof.Machine.execGetkey s
  | .playfreq fcode dcode wtype => Sys2Proof.Machine.execPlayfreq fcode dcode wtype s
  | .playsmp id => Sys2Proof.Machine.execPlaysmp id s
  | .showkey key ignored => Sys2Proof.Machine.execShowkey key ignored s
  | .cfgfreq word => Sys2Proof.Machine.execCfgfreq word s
  | .rdfreq => Sys2Proof.Machine.execRdfreq s
  | .cfgsmp word => Sys2Proof.Machine.execCfgsmp word s
  | .cfgcol word => Sys2Proof.Machine.execCfgcol word s
  | .smpcount => Sys2Proof.Machine.execSmpcount s
  | .listsmp ignored => Sys2Proof.Machine.execListsmp ignored s
  | .playcomb fcode sid => Sys2Proof.Machine.execPlaycomb fcode sid s
  | .setmode key mode wtype => Sys2Proof.Machine.execSetmode key mode wtype s
  | .unknownRd addr => Sys2Proof.Machine.execUnknownRd addr s
  | .unknownWr addr ignored => Sys2Proof.Machine.execUnknownWr addr ignored s

end Sys2Proof.Machine
end

