-- ==== Sys2Proof/Machine/Step.lean ====
section
/-! DEFINITION. One step of the machine: the next agent's step, whole (spec/20_memory.md R55, R56). -/

namespace Sys2Proof.Machine

/-- One step of one agent (R18): a transaction is decoded and performed (R225), a sample rendered (R144), or the
timers ticked (R185). -/
def runInput (i : Input) (s : State) : Host.Outcome State Fault Refusal :=
  match i with
  | .bus t => exec (decode t) s
  | .sample => .next s.sampleStep
  | .frame => .next s.frameStep

/-- One step: the next input, run to its end. -/
def step (s : State) : Host.Outcome State Fault Refusal := runInput s.takeInput.1 s.takeInput.2

/-- The transaction of an opcode-table word, placed where the next step takes its input (log 2). -/
def State.withFetchWord (s : State) (nbits w : Nat) : State :=
  { s with inputs := .bus (transactionOfBits (w % 2 ^ nbits)) :: s.inputs }

end Sys2Proof.Machine
end

