-- ==== Sys2Proof/Machine/Script.lean ====
section
/-! DEFINITION. The pseudo-operations of the transaction script and their expansions (spec/30_encoding.md R84).
A script line of R83 is an `Input`. -/

namespace Sys2Proof.Machine

/-- The pseudo-operations (R84), with the widths of the fields they fill. -/
inductive PseudoOp where
  | playNote (fc : BitVec 8) (dc wt : BitVec 4)
  | showKey (k : Key)
  | setFreq (k : Key) (hz : Word)
  | setSample (k : Key) (id : Word)
  | setColor (k : Key) (r3 g3 : BitVec 3) (b2 : BitVec 2)
  | setMode (k : Key) (m wt : BitVec 4)
  | playComb (fc sid : BitVec 8)
deriving DecidableEq, Repr

/-- The transactions of a pseudo-operation; an expansion of two writes is not atomic (R84). -/
def PseudoOp.expand : PseudoOp → List Transaction
  | .playNote fc dc wt =>
    [.wr 0x9001 ((wt.setWidth 16 <<< 12) ||| (dc.setWidth 16 <<< 8) ||| fc.setWidth 16)]
  | .showKey k => [.wr 0x9003 (k.setWidth 16)]
  | .setFreq k hz => [.wr 0x9004 (k.setWidth 16), .wr 0x9004 hz]
  | .setSample k id => [.wr 0x9005 (k.setWidth 16), .wr 0x9005 id]
  | .setColor k r3 g3 b2 =>
    [.wr 0x9006 (k.setWidth 16),
     .wr 0x9006 ((r3.setWidth 16 <<< 5) ||| (g3.setWidth 16 <<< 2) ||| b2.setWidth 16)]
  | .setMode k m wt =>
    [.wr 0x900A ((wt.setWidth 16 <<< 12) ||| (m.setWidth 16 <<< 8) ||| k.setWidth 16)]
  | .playComb fc sid => [.wr 0x9009 ((sid.setWidth 16 <<< 8) ||| fc.setWidth 16)]

end Sys2Proof.Machine
end

