-- ==== Sys2Proof/Safety.lean ====
section
/-! DEFINITION. What claims call a good state and a safe run. -/

namespace Sys2Proof.Machine

/-- The voice's invariant and ranges (R20, R21). -/
structure Voice.Good (v : Voice) : Prop where
  elapsed_le_total : v.elapsed ≤ v.total
  active_lt : v.active = true → v.elapsed < v.total
  freq_nonneg : 0 ≤ v.freq
  theta_nonneg : 0 ≤ v.theta
  theta_lt_one : v.theta < 1
  vol_nonneg : 0 ≤ v.vol
  vol_le_one : v.vol ≤ 1

/-- An upper-case ASCII letter, which no stored key symbol is (R11, R103). -/
def upperCase (k : Key) : Bool := decide (0x41 ≤ k ∧ k ≤ 0x5A)

/-- The invariant of the block's state: the voice (R20, R21), timers present only with 1 to 50 frames left (R23,
R267), and every stored key symbol lower-cased (R11, R22). -/
structure State.Good (s : State) : Prop where
  voice : s.voice.Good
  timers : ∀ k n, s.timer k = some n → 1 ≤ n ∧ n ≤ Config.hlShow
  timer_lower : ∀ k, upperCase k = true → s.timer k = none
  binding_lower : ∀ k, upperCase k = true → s.binding k = {}
  cursor_lower : ∀ k, s.cursor = some k → upperCase k = false

/-- A run is safe when no number of steps ends in a fault or a refusal (R261). -/
def State.Safe (s : State) : Prop :=
  ∀ n, ∃ t, Host.Core.run Sys2Proof.core n s = .next t

/-- An event that goes to the audio backend (R265). -/
def Event.isAudio : Event → Bool
  | .audioOut _ | .playSample _ => true
  | .highlight _ _ | .color _ _ _ _ | .listSamples => false

/-- An event that goes to the visual backend (R265). -/
def Event.isVisual : Event → Bool
  | .highlight _ _ | .color _ _ _ _ => true
  | .audioOut _ | .playSample _ | .listSamples => false

end Sys2Proof.Machine
end

