-- ==== Sys2Proof/Certificates/Slice0/Obligations.lean ====
section
/-! DEFINITION. The statements for the provers, each from the rules of spec/ its docstring names.

Two fields of State are the model's own and no rule fixes them: the degradation trace `degrades` (log 8) and what a bus
WRITE leaves in `busResult` (log 7). Statements of a rule leave both open (`∃ d r, …`); two statements of their own, marked
as the model's choice, say what they hold. -/

open Sys2Proof Sys2Proof.Machine

namespace Sys2Proof.Stated

/-- Events for the audio backend, dropped when AUDIO_READY = false (R265). -/
def toAudio (s : State) (es : List Event) : List Event := if s.params.audioReady = true then es else []

/-- Events for the visual backend, dropped when VISUAL_READY = false (R265). -/
def toVisual (s : State) (es : List Event) : List Event := if s.params.visualReady = true then es else []

/-- A voice just triggered (R141), or the old one when AUDIO_READY = false (R265). -/
def triggered (s : State) (f : Rat) (T : Nat) : Voice :=
  if s.params.audioReady = true then ⟨true, f, 0, 1, T, 0⟩ else s.voice

/-- What a sample request emits (R113). -/
def sampleEvents (s : State) (id : Nat) : List Event :=
  if id < s.params.nSamples.toNat then toAudio s [.playSample (BitVec.ofNat 16 id)] else []

/-- The voice after a sample request: the fallback tone when the id is out of range (R113). -/
def sampleVoice (s : State) (id : Nat) : Voice :=
  if id < s.params.nSamples.toNat then s.voice else triggered s 220 4410

/-- The key a GETKEY draws: the host's next pending answer, or a free value (R210; log 4). -/
def drawn (s : State) : Key := s.keyAnswers.head?.getD (Config.freeKey s.drawn)

/-- The sample id a key's mode plays (R214, R31). -/
def soundSample (b : Binding) : Option Word :=
  if b.mode = some .sample ∨ b.mode = some .both then b.sample else none

/-- The frequency a key's mode plays (R214, R31). -/
def soundFreq (b : Binding) : Option Word :=
  if b.mode = none ∨ b.mode = some .frequency ∨ b.mode = some .both then b.freq else none

/-- A bound frequency in Hz shaped by the key's wave type, 0 when unset (R150, R31). -/
def shapedFreq (b : Binding) (f : Word) : Rat :=
  if b.wave = some 2 then 11 * (f.toNat : Rat) / 10
  else if b.wave = some 3 then 9 * (f.toNat : Rat) / 10 else (f.toNat : Rat)

/-- A key note's duration shaped by the key's wave type (R150, R214). -/
def shapedSamples (b : Binding) : Nat := if b.wave = some 1 then 3528 else 4410

/-- The classes R260 names for each operation, in the order of its pseudocode (log 8). -/
def classes (i : Instr) (s : State) : List Degrade :=
  let noAudio : List Degrade := if s.params.audioReady = true then [] else [.backendUninit]
  let noVisual : List Degrade := if s.params.visualReady = true then [] else [.backendUninit]
  let sampleRequest (id : Nat) : List Degrade :=
    if id < s.params.nSamples.toNat then noAudio else .sampleRange :: noAudio
  let misuse (w : Word) : List Degrade := if 0xFF < w.toNat then [.cursorMisuse] else []
  match i with
  | .getkey => if drawn s = 0 then [] else noVisual
  | .playfreq _ _ t => (if 4 ≤ t.toNat then [.waveModeRange] else []) ++ noAudio
  | .playsmp id => sampleRequest id.toNat
  | .showkey k _ =>
    noVisual ++ ((soundSample (s.binding (lower k))).elim [] fun id => sampleRequest id.toNat)
      ++ ((soundFreq (s.binding (lower k))).elim [] fun _ => noAudio)
  | .cfgfreq w | .cfgsmp w => if s.cursor = none then misuse w else []
  | .cfgcol w => if s.cursor = none then misuse w else noVisual
  | .playcomb _ sid => sampleRequest sid.toNat ++ noAudio
  | .setmode _ m t => if 4 ≤ m.toNat ∨ 4 ≤ t.toNat then [.waveModeRange] else []
  | .unknownRd _ | .unknownWr _ _ => [.invalidAddress]
  | .rdfreq | .smpcount | .listsmp _ => []

/-- A write that completes a two-phase pair has put its word in its port's property of a binding (R110). -/
def boundTo (i : Instr) (w : Word) (b : Binding) : Prop :=
  (i = .cfgfreq w ∧ b.freq = some w) ∨ (i = .cfgsmp w ∧ b.sample = some w) ∨
  (i = .cfgcol w ∧ b.color = some (BitVec.ofNat 8 w.toNat))

/-- The envelope of R143 by its pieces, for a voice no shorter than two fades. -/
def envelope (n T : Nat) : Rat :=
  if n < 882 then (n : Rat) / 882 else if n ≤ T - 882 then 1 else ((T : Rat) - (n : Rat)) / 882

/-- The phase of the n-th sample of a voice of frequency f (R145). -/
def phase (f : Rat) (n : Nat) : Rat := (n : Rat) * f / 44100 - (((n : Rat) * f / 44100).floor : Rat)

/-- The audio values among events, in order. -/
def samples (es : List Event) : List AudioValue :=
  es.filterMap fun e => match e with
    | .audioOut v => some v
    | .playSample _ | .highlight _ _ | .color _ _ _ _ | .listSamples => none

/-- Every bus operation among the next n steps from s satisfies p in the state it runs in. -/
def BusSteps (n : Nat) (s : State) (p : Instr → State → Prop) : Prop :=
  ∀ (m : Nat) (u : State) (t : Transaction) (rest : List Input), m < n → Sys2Proof.core.run m s = .next u →
    u.inputs = .bus t :: rest → p (decode t) u

/-- The operation calls for a trigger of the voice: PLAYFREQ and PLAYCOMB always, a sample request out of range (R113),
a key's frequency sound (R214). -/
def Triggers (i : Instr) (s : State) : Prop :=
  match i with
  | .playfreq _ _ _ | .playcomb _ _ => True
  | .playsmp id => s.params.nSamples.toNat ≤ id.toNat
  | .showkey k _ => (soundFreq (s.binding (lower k))).isSome ∨
      ∃ id, soundSample (s.binding (lower k)) = some id ∧ s.params.nSamples.toNat ≤ id.toNat
  | .getkey | .cfgfreq _ | .rdfreq | .cfgsmp _ | .cfgcol _ | .smpcount | .listsmp _ | .setmode _ _ _ | .unknownRd _
  | .unknownWr _ _ => False

/-- The operation triggers the highlight of key k: a SHOWKEY of it, or a GETKEY that draws it (R183). -/
def Highlights (k : Key) (i : Instr) (s : State) : Prop :=
  match i with
  | .showkey j _ => lower j = k
  | .getkey => drawn s ≠ 0 ∧ lower (drawn s) = k
  | .playfreq _ _ _ | .playsmp _ | .cfgfreq _ | .rdfreq | .cfgsmp _ | .cfgcol _ | .smpcount | .listsmp _
  | .playcomb _ _ | .setmode _ _ _ | .unknownRd _ | .unknownWr _ _ => False

end Sys2Proof.Stated

open Sys2Proof.Stated

/-! ## Encoding -/

/-- R71, R73 to R79: no operand bit of a well-formed operation is lost by the encoding. -/
def Obligations.DecodeEncodeRoundTrip : Prop :=
  ∀ i : Instr, i.wellFormed = true → decode (encode i) = i

/-- R71, R81: every transaction decodes to a well-formed operation, whose encoding is that transaction again. -/
def Obligations.EncodeDecodeRoundTrip : Prop :=
  ∀ t : Transaction, (decode t).wellFormed = true ∧ encode (decode t) = t

/-- R71: the decoder gives the first row of the table that matches the selector, and some row always does. -/
def Obligations.DecodeIsTheFirstMatchingRow : Prop :=
  ∀ t : Transaction,
    (opcodeTable.find? fun r => (t.sel.toNat &&& r.mask.toNat) == r.pattern.toNat).map OpcodeRow.mnemonic
      = some (decode t).mnemonic ∧
    t.sel.toNat = (match t with
      | .rd a => a.toNat
      | .wr a _ => 0x10000 + a.toNat)

/-- R73, R75, R78, R79: the fields of the packed words stand where their formats put them. -/
def Obligations.PackedWordFieldsStandAtTheirBits : Prop :=
  ∀ w : Word,
    (∃ f d t, decode (.wr 0x9001 w) = .playfreq f d t ∧
      f.toNat = w.toNat % 256 ∧ d.toNat = w.toNat / 256 % 16 ∧ t.toNat = w.toNat / 4096) ∧
    (∃ k x, decode (.wr 0x9003 w) = .showkey k x ∧ k.toNat = w.toNat % 256 ∧ x.toNat = w.toNat / 256) ∧
    (∃ f i, decode (.wr 0x9009 w) = .playcomb f i ∧ f.toNat = w.toNat % 256 ∧ i.toNat = w.toNat / 256) ∧
    (∃ k m t, decode (.wr 0x900A w) = .setmode k m t ∧
      k.toNat = w.toNat % 256 ∧ m.toNat = w.toNat / 256 % 16 ∧ t.toNat = w.toNat / 4096)

/-- R52, R81: exactly the three read ports and the nine write ports are not Unknown, so a wrong-direction access is. -/
def Obligations.UnknownIsEveryOtherAddress : Prop :=
  (∀ a : Word, decode (.rd a) = .unknownRd a ↔ a ≠ 0x9000 ∧ a ≠ 0x9004 ∧ a ≠ 0x9007) ∧
  (∀ a w : Word, decode (.wr a w) = .unknownWr a w ↔ ¬ (0x9001 ≤ a.toNat ∧ a.toNat ≤ 0x900A ∧ a.toNat ≠ 0x9007))

/-- Transactions of spec/95_test_vectors.md, with selectors and data words written out. That the data word stands at
bits 32 to 17 is the model's choice (log 9). -/
def Obligations.WrittenOutTransactionsDecode : Prop :=
  decodeBits 0x09000 = .ok .getkey ∧
  decodeBits (0x19001 + 0x3016 * 2 ^ 17) = .ok (.playfreq 0x16 0x0 0x3) ∧
  decodeBits (0x19003 + 0x0041 * 2 ^ 17) = .ok (.showkey 0x41 0x00) ∧
  decodeBits (0x19004 + 0x01B8 * 2 ^ 17) = .ok (.cfgfreq 0x01B8) ∧
  decodeBits (0x19009 + 0x0216 * 2 ^ 17) = .ok (.playcomb 0x16 0x02) ∧
  decodeBits (0x1900A + 0x2061 * 2 ^ 17) = .ok (.setmode 0x61 0x0 0x2) ∧
  decodeBits 0x09001 = .ok (.unknownRd 0x9001) ∧
  decodeBits (0x19000 + 0x0061 * 2 ^ 17) = .ok (.unknownWr 0x9000 0x0061)

/-- R84: each pseudo-operation expands to the transactions of the operations it stands for. -/
def Obligations.PseudoOpsExpandToTheirOperations : Prop :=
  (∀ fc dc wt, (PseudoOp.playNote fc dc wt).expand.map decode = [.playfreq fc dc wt]) ∧
  (∀ k, (PseudoOp.showKey k).expand.map decode = [.showkey k 0]) ∧
  (∀ k hz, (PseudoOp.setFreq k hz).expand.map decode = [.cfgfreq (k.setWidth 16), .cfgfreq hz]) ∧
  (∀ k id, (PseudoOp.setSample k id).expand.map decode = [.cfgsmp (k.setWidth 16), .cfgsmp id]) ∧
  (∀ k r3 g3 b2, ∃ v, (PseudoOp.setColor k r3 g3 b2).expand.map decode = [.cfgcol (k.setWidth 16), .cfgcol v] ∧
    v.toNat = 32 * r3.toNat + 4 * g3.toNat + b2.toNat) ∧
  (∀ k m wt, (PseudoOp.setMode k m wt).expand.map decode = [.setmode k m wt]) ∧
  (∀ fc sid, (PseudoOp.playComb fc sid).expand.map decode = [.playcomb fc sid])

/-! ## Reset, parameters, the step -/

/-- R32: the value of every state component at reset, for every choice of the run's parameters. -/
def Obligations.ResetLeavesTheStatedValues : Prop :=
  ∀ (p : Config.Params) (k : Key),
    (State.resetWith p).voice = ⟨false, 0, 0, 0, 0, 0⟩ ∧
    (State.resetWith p).binding k = ⟨none, none, none, none, none⟩ ∧
    (State.resetWith p).timer k = none ∧
    (State.resetWith p).cursor = none ∧
    (State.resetWith p).out = []

/-- R21, R22, R23, R32: the invariant holds at reset. -/
def Obligations.GoodAtReset : Prop := ∀ p : Config.Params, (State.resetWith p).Good

/-- R20 to R23, R103: every step of every agent keeps the invariant. -/
def Obligations.StepKeepsGood : Prop :=
  ∀ s t : State, s.Good → step s = .next t → t.Good

/-- R28: no step writes the run's parameters. -/
def Obligations.NoStepWritesTheParameters : Prop :=
  ∀ s t : State, step s = .next t → t.params = s.params

/-- R261: no run of any length faults or is refused, from any state. -/
def Obligations.EveryRunIsSafe : Prop := ∀ s : State, s.Safe

/-- R18, R225, R144, R185: a step is the next input's own step, and a pending encoding of an operation is that operation.
That the agents' steps stand in a list of pending inputs is the model's choice (log 1). -/
def Obligations.StepRunsTheDecodedTransaction : Prop :=
  ∀ (s : State) (rest : List Input),
    (∀ t, s.inputs = .bus t :: rest → step s = exec (decode t) { s with inputs := rest }) ∧
    (∀ i : Instr, i.wellFormed = true → s.inputs = .bus (encode i) :: rest →
      step s = exec i { s with inputs := rest }) ∧
    (s.inputs = .sample :: rest → step s = .next (State.sampleStep { s with inputs := rest })) ∧
    (s.inputs = .frame :: rest → step s = .next (State.frameStep { s with inputs := rest }))

/-- The model's choice (log 2): an opcode-table word placed for the next step runs as the operation it decodes to. -/
def Obligations.FetchWordRunsItsOperation : Prop :=
  ∀ (s : State) (nbits w : Nat) (i : Instr), decodeTableWord nbits w = some i →
    step (s.withFetchWord nbits w) = exec i s

/-- The model's choice (log 1): with no pending input the environment's free choice is what runs. -/
def Obligations.EmptyInputRunsTheFreeChoice : Prop :=
  ∀ s : State, s.inputs = [] →
    step s = step { s with inputs := [Config.freeInput s.drawn], drawn := s.drawn + 1 }

/-! ## Field decoders -/

/-- R100, R101, R102, R105: the coded fields, for every code. -/
def Obligations.CodedFieldsDecode : Prop :=
  (∀ fc : BitVec 8, freqOf fc = 220 + 10 * fc.toNat) ∧
  (∀ dc : BitVec 4, samplesOf dc = 4410 * (1 + dc.toNat)) ∧
  (∀ t : BitVec 4, (waveOf t).val = t.toNat % 4) ∧
  (∀ m : BitVec 4, modeOf m = (if m.toNat % 4 = 0 then .frequency else if m.toNat % 4 = 1 then .sample
    else if m.toNat % 4 = 2 then .both else .reserved))

/-- R103: lower-casing adds 0x20 to 0x41..0x5A and to nothing else. -/
def Obligations.LowerMapsAsciiLettersOnly : Prop :=
  ∀ c : Key,
    (0x41 ≤ c.toNat ∧ c.toNat ≤ 0x5A → (lower c).toNat = c.toNat + 0x20) ∧
    (¬ (0x41 ≤ c.toNat ∧ c.toNat ≤ 0x5A) → lower c = c)

/-- R106, R107: the RGB-332 decode, the quantiser that undoes it, and the bucket floor the round trip gives. -/
def Obligations.RgbDecodeAndQuantiserLaw : Prop :=
  (∀ c : BitVec 8, rgb c = (36 * (c.toNat / 32), 36 * (c.toNat / 4 % 8), 85 * (c.toNat % 4))) ∧
  (∀ c : BitVec 8, quantise (rgb c).1 (rgb c).2.1 (rgb c).2.2 = c) ∧
  (∀ r g b : Nat, r < 256 → g < 256 → b < 256 →
    (quantise r g b).toNat = 32 * min 7 (r / 36) + 4 * min 7 (g / 36) + min 3 (b / 85) ∧
    rgb (quantise r g b) = (36 * min 7 (r / 36), 36 * min 7 (g / 36), 85 * min 3 (b / 85)))

/-! ## The port operations: what each does, and that it does nothing else -/

/-- R210: GETKEY. A draw of 0 is no key; any other code is answered raw and its lower-cased key highlighted for 30 frames.
Where the draw comes from is the model's choice (log 4): a pending answer is used up, or the draw counter moves. -/
def Obligations.GetkeyAnswersAndHighlights : Prop :=
  decode (.rd 0x9000) = .getkey ∧
  ∀ s : State, ∃ d, exec .getkey s = .next
    { s with
      keyAnswers := s.keyAnswers.tail
      drawn := if s.keyAnswers = [] then s.drawn + 1 else s.drawn
      degrades := s.degrades ++ d
      busResult := some (BitVec.ofNat 16 (drawn s).toNat)
      hl := if drawn s = 0 then s.hl else s.hl.set (lower (drawn s)).toNat (some 30)
      out := s.out ++ if drawn s = 0 then [] else toVisual s [.highlight (lower (drawn s)) true] }

/-- R211: PLAYFREQ, with the shaped values of R151, for every word. -/
def Obligations.PlayfreqStartsTheShapedVoice : Prop :=
  (∀ w : Word, decode (.wr 0x9001 w) = .playfreq (w.extractLsb' 0 8) (w.extractLsb' 8 4) (w.extractLsb' 12 4)) ∧
  ∀ (s : State) (fc : BitVec 8) (dc wt : BitVec 4), ∃ d r, exec (.playfreq fc dc wt) s = .next
    { s with
      degrades := s.degrades ++ d
      busResult := r
      voice := triggered s
        (if wt.toNat % 4 = 2 then 242 + 11 * (fc.toNat : Rat)
          else if wt.toNat % 4 = 3 then 198 + 9 * (fc.toNat : Rat) else 220 + 10 * (fc.toNat : Rat))
        (if wt.toNat % 4 = 1 then 3528 * (1 + dc.toNat) else 4410 * (1 + dc.toNat)) }

/-- R113, R212: PLAYSMP plays a valid id and leaves the voice alone, and falls back, as SampleRange, otherwise. -/
def Obligations.PlaysmpPlaysOrFallsBack : Prop :=
  (∀ w : Word, decode (.wr 0x9002 w) = .playsmp w) ∧
  ∀ (s : State) (id : Word), ∃ d r, exec (.playsmp id) s = .next
    { s with
      degrades := s.degrades ++ d
      busResult := r
      out := s.out ++ sampleEvents s id.toNat
      voice := sampleVoice s id.toNat } ∧
    (.sampleRange ∈ d ↔ s.params.nSamples.toNat ≤ id.toNat)

/-- R213, R214: SHOWKEY highlights the lower-cased key for 50 frames and plays what its mode gives, sample part first. -/
def Obligations.ShowkeyHighlightsAndSounds : Prop :=
  (∀ w : Word, decode (.wr 0x9003 w) = .showkey (w.extractLsb' 0 8) (w.extractLsb' 8 8)) ∧
  ∀ (s : State) (k : Key) (x : BitVec 8), ∃ d r, exec (.showkey k x) s = .next
    { s with
      degrades := s.degrades ++ d
      busResult := r
      hl := s.hl.set (lower k).toNat (some 50)
      out := s.out ++ toVisual s [.highlight (lower k) true]
        ++ ((soundSample (s.binding (lower k))).elim [] fun id => sampleEvents s id.toNat)
      voice := (soundFreq (s.binding (lower k))).elim
        ((soundSample (s.binding (lower k))).elim s.voice fun id => sampleVoice s id.toNat)
        fun f => triggered s (shapedFreq (s.binding (lower k)) f) (shapedSamples (s.binding (lower k))) } ∧
    (.sampleRange ∈ d ↔ ∃ id, soundSample (s.binding (lower k)) = some id ∧ s.params.nSamples.toNat ≤ id.toNat)

/-- R110, R215: CFGFREQ. -/
def Obligations.CfgfreqSelectsOrBinds : Prop :=
  (∀ w : Word, decode (.wr 0x9004 w) = .cfgfreq w) ∧
  ∀ (s : State) (w : Word), ∃ d r, exec (.cfgfreq w) s = .next
    { s with
      degrades := s.degrades ++ d
      busResult := r
      bind := s.cursor.elim s.bind fun k => s.bind.set k.toNat { s.binding k with freq := some w }
      cursor := if s.cursor = none ∧ w.toNat ≤ 0xFF then some (lower (BitVec.ofNat 8 w.toNat)) else none } ∧
    (.cursorMisuse ∈ d ↔ s.cursor = none ∧ 0xFF < w.toNat)

/-- R110, R217: CFGSMP; the id is not checked. -/
def Obligations.CfgsmpSelectsOrBinds : Prop :=
  (∀ w : Word, decode (.wr 0x9005 w) = .cfgsmp w) ∧
  ∀ (s : State) (w : Word), ∃ d r, exec (.cfgsmp w) s = .next
    { s with
      degrades := s.degrades ++ d
      busResult := r
      bind := s.cursor.elim s.bind fun k => s.bind.set k.toNat { s.binding k with sample := some w }
      cursor := if s.cursor = none ∧ w.toNat ≤ 0xFF then some (lower (BitVec.ofNat 8 w.toNat)) else none } ∧
    (.cursorMisuse ∈ d ↔ s.cursor = none ∧ 0xFF < w.toNat)

/-- R110, R218: CFGCOL; the color is the word's low byte, and a completing write sends its Color event. -/
def Obligations.CfgcolSelectsOrBinds : Prop :=
  (∀ w : Word, decode (.wr 0x9006 w) = .cfgcol w) ∧
  ∀ (s : State) (w : Word), ∃ d r, exec (.cfgcol w) s = .next
    { s with
      degrades := s.degrades ++ d
      busResult := r
      bind := s.cursor.elim s.bind fun k =>
        s.bind.set k.toNat { s.binding k with color := some (BitVec.ofNat 8 w.toNat) }
      out := s.out ++ s.cursor.elim [] fun k => toVisual s
        [.color k (36 * (w.toNat / 32 % 8)) (36 * (w.toNat / 4 % 8)) (85 * (w.toNat % 4))]
      cursor := if s.cursor = none ∧ w.toNat ≤ 0xFF then some (lower (BitVec.ofNat 8 w.toNat)) else none } ∧
    (.cursorMisuse ∈ d ↔ s.cursor = none ∧ 0xFF < w.toNat)

/-- R216: RDFREQ answers the pending key's frequency, or 0, and changes nothing else. -/
def Obligations.RdfreqAnswersThePendingFrequency : Prop :=
  decode (.rd 0x9004) = .rdfreq ∧
  ∀ s : State,
    (∀ k f, s.cursor = some k → (s.binding k).freq = some f →
      exec .rdfreq s = .next { s with busResult := some f }) ∧
    ((∀ k f, s.cursor = some k → (s.binding k).freq ≠ some f) →
      exec .rdfreq s = .next { s with busResult := some 0 })

/-- R219: SMPCOUNT answers N_SAMPLES and changes nothing else. -/
def Obligations.SmpcountAnswersNSamples : Prop :=
  decode (.rd 0x9007) = .smpcount ∧
  ∀ s : State, exec .smpcount s = .next { s with busResult := some s.params.nSamples }

/-- R220: LISTSMP emits one event, whatever its word. -/
def Obligations.ListsmpEmitsOneEvent : Prop :=
  (∀ w : Word, decode (.wr 0x9008 w) = .listsmp w) ∧
  ∀ (s : State) (w : Word), ∃ r, exec (.listsmp w) s = .next { s with busResult := r, out := s.out ++ [.listSamples] }

/-- R221: PLAYCOMB requests its sample and ends with the coded frequency for 4410 samples, unshaped. -/
def Obligations.PlaycombPlaysBoth : Prop :=
  (∀ w : Word, decode (.wr 0x9009 w) = .playcomb (w.extractLsb' 0 8) (w.extractLsb' 8 8)) ∧
  ∀ (s : State) (fc sid : BitVec 8), ∃ d r, exec (.playcomb fc sid) s = .next
    { s with
      degrades := s.degrades ++ d
      busResult := r
      out := s.out ++ sampleEvents s sid.toNat
      voice := triggered s (220 + 10 * (fc.toNat : Rat)) 4410 } ∧
    (.sampleRange ∈ d ↔ s.params.nSamples.toNat ≤ sid.toNat)

/-- R222: SETMODE writes the key's mode and wave type, each taken mod 4, and not the cursor. -/
def Obligations.SetmodeWritesModeAndWave : Prop :=
  (∀ w : Word, decode (.wr 0x900A w) = .setmode (w.extractLsb' 0 8) (w.extractLsb' 8 4) (w.extractLsb' 12 4)) ∧
  ∀ (s : State) (k : Key) (m wt : BitVec 4), ∃ d r, exec (.setmode k m wt) s = .next
    { s with
      degrades := s.degrades ++ d
      busResult := r
      bind := s.bind.set (lower k).toNat
        { s.binding (lower k) with
          mode := some (if m.toNat % 4 = 0 then .frequency else if m.toNat % 4 = 1 then .sample
            else if m.toNat % 4 = 2 then .both else .reserved)
          wave := some (Fin.ofNat 4 wt.toNat) } }

/-- R223: every access that is not a port's own is a no-op, as InvalidAddress, and a read answers 0. -/
def Obligations.UnknownAccessIsANoOp : Prop :=
  (∀ a : Word, a ≠ 0x9000 → a ≠ 0x9004 → a ≠ 0x9007 → decode (.rd a) = .unknownRd a) ∧
  (∀ a w : Word, ¬ (0x9001 ≤ a.toNat ∧ a.toNat ≤ 0x900A ∧ a.toNat ≠ 0x9007) → decode (.wr a w) = .unknownWr a w) ∧
  (∀ (s : State) (a : Word), exec (.unknownRd a) s =
    .next { s with degrades := s.degrades ++ [.invalidAddress], busResult := some 0 }) ∧
  (∀ (s : State) (a w : Word), ∃ r, exec (.unknownWr a w) s =
    .next { s with degrades := s.degrades ++ [.invalidAddress], busResult := r })

/-- The model's choice (log 8), from R260 and R263: the classes each operation adds to the trace, in order. -/
def Obligations.EachOperationTracesItsClasses : Prop :=
  ∀ (i : Instr) (s t : State), exec i s = .next t → t.degrades = s.degrades ++ classes i s

/-- The model's choice (log 7), from R70: a read leaves its answer, a write leaves none. -/
def Obligations.ReadsAnswerAndWritesDoNot : Prop :=
  ∀ (x : Transaction) (s t : State), exec (decode x) s = .next t →
    (t.busResult.isSome ↔ ∃ a, x = .rd a)

/-! ## Rules over all operations -/

/-- R33: the write columns of the access matrix, for every operation and both clock steps. -/
def Obligations.OnlyTheListedStepsWrite : Prop :=
  (∀ (i : Instr) (s t : State), exec i s = .next t →
    (i.mnemonic ∉ ["PLAYFREQ", "PLAYSMP", "SHOWKEY", "PLAYCOMB"] → t.voice = s.voice) ∧
    (i.mnemonic ∉ ["CFGFREQ", "CFGSMP", "CFGCOL", "SETMODE"] → t.bind = s.bind) ∧
    (i.mnemonic ∉ ["GETKEY", "SHOWKEY"] → t.hl = s.hl) ∧
    (i.mnemonic ∉ ["CFGFREQ", "CFGSMP", "CFGCOL"] → t.cursor = s.cursor)) ∧
  (∀ s : State, s.sampleStep.bind = s.bind ∧ s.sampleStep.hl = s.hl ∧ s.sampleStep.cursor = s.cursor ∧
    s.frameStep.voice = s.voice ∧ s.frameStep.bind = s.bind ∧ s.frameStep.cursor = s.cursor)

/-- R26, R33, R57: no bus operation reads the voice. Run with another voice, it leaves everything else the same, and the
voice either untouched or replaced whole by the same new one. -/
def Obligations.NoOperationReadsTheVoice : Prop :=
  ∀ (i : Instr) (s t : State) (v : Voice), exec i s = .next t →
    ∃ v', exec i { s with voice := v } = .next { t with voice := v' } ∧
      ((t.voice = s.voice ∧ v' = v) ∨ v' = t.voice)

/-- R59: a read of any address but 0x9000 leaves everything as it was, but for its answer and the model's trace. -/
def Obligations.OtherReadsHaveNoSideEffect : Prop :=
  ∀ (s : State) (a : Word), a ≠ 0x9000 →
    ∃ d w, exec (decode (.rd a)) s = .next { s with degrades := d, busResult := some w }

/-- R81: no value of an ignored bit changes any effect. The bits a field loses mod 4 can show only in the model's trace. -/
def Obligations.IgnoredBitsHaveNoEffect : Prop :=
  (∀ (s : State) (k : Key) (x y : BitVec 8), exec (.showkey k x) s = exec (.showkey k y) s) ∧
  (∀ (s : State) (x y : Word), exec (.listsmp x) s = exec (.listsmp y) s) ∧
  (∀ (s : State) (a x y : Word), exec (.unknownWr a x) s = exec (.unknownWr a y) s) ∧
  (∀ (s : State) (k : Key) (x y : Word), s.cursor = some k → x.toNat % 256 = y.toNat % 256 →
    exec (.cfgcol x) s = exec (.cfgcol y) s) ∧
  (∀ (s t : State) (fc : BitVec 8) (dc x y : BitVec 4), x.toNat % 4 = y.toNat % 4 →
    exec (.playfreq fc dc x) s = .next t → ∃ d, exec (.playfreq fc dc y) s = .next { t with degrades := d }) ∧
  (∀ (s t : State) (k : Key) (m n x y : BitVec 4), m.toNat % 4 = n.toNat % 4 → x.toNat % 4 = y.toNat % 4 →
    exec (.setmode k m x) s = .next t → ∃ d, exec (.setmode k n y) s = .next { t with degrades := d })

/-- R301: a word above 0xFF on any two-phase port leaves the cursor empty, whatever it held; with nothing pending it is
ignored, else it is bound to that port's property; and nothing clears a pending key without binding it a value. -/
def Obligations.BigWordClearsTheCursor : Prop :=
  (∀ (s t : State) (w : Word) (i : Instr), 0xFF < w.toNat → (i = .cfgfreq w ∨ i = .cfgsmp w ∨ i = .cfgcol w) →
    exec i s = .next t → t.cursor = none ∧
      (s.cursor = none → ∃ r, t = { s with degrades := s.degrades ++ [.cursorMisuse], busResult := r }) ∧
      (∀ k, s.cursor = some k → boundTo i w (t.binding k))) ∧
  (∀ (s t : State) (i : Instr) (k : Key), exec i s = .next t → s.cursor = some k → t.cursor = none →
    ∃ w, boundTo i w (t.binding k))

/-- R306, R216: on any of the three ports, a read of 0x9004 right after a completing write answers 0, and one right after a
select answers the frequency bound to the selected key. -/
def Obligations.RdfreqAfterATwoPhaseWrite : Prop :=
  ∀ (s t : State) (w : Word) (i : Instr), (i = .cfgfreq w ∨ i = .cfgsmp w ∨ i = .cfgcol w) → exec i s = .next t →
    (s.cursor ≠ none → exec .rdfreq t = .next { t with busResult := some 0 }) ∧
    (s.cursor = none → w.toNat ≤ 0xFF → exec .rdfreq t =
      .next { t with busResult := some ((s.binding (lower (BitVec.ofNat 8 w.toNat))).freq.getD 0) })

/-- R60: a repeated SETMODE, and a repeated access to an Unknown address, change nothing more of the spec's state. -/
def Obligations.RepeatedSetmodeAndUnknownChangeNothing : Prop :=
  ∀ (s t u : State) (i : Instr), i.mnemonic ∈ ["SETMODE", "UNKNOWN_RD", "UNKNOWN_WR"] →
    exec i s = .next t → exec i t = .next u → u = { t with degrades := u.degrades }

/-- R84, R110: from an empty cursor, SETFREQ binds the frequency of the lower-cased key and leaves the cursor empty. -/
def Obligations.SetFreqBindsTheKey : Prop :=
  ∀ (s : State) (k : Key) (hz : Word) (rest : List Input), s.cursor = none →
    s.inputs = (PseudoOp.setFreq k hz).expand.map Input.bus ++ rest →
    ∃ t, Sys2Proof.core.run 2 s = .next t ∧ t.inputs = rest ∧ t.cursor = none ∧ t.voice = s.voice ∧ t.hl = s.hl ∧
      t.out = s.out ∧ (t.binding (lower k)).freq = some hz ∧ (∀ k', k' ≠ lower k → t.binding k' = s.binding k')

/-- R30: the output stream only grows, by what the step emits. -/
def Obligations.OutputStreamOnlyGrows : Prop :=
  ∀ s t : State, step s = .next t → ∃ es, t.out = s.out ++ es

/-! ## The oscillator -/

/-- R144, R142: an active SAMPLE step emits one value, SIN(theta) · vol · env · 3/10 under every SIN that R149 allows, and
advances phase and count; an inactive one emits 0. -/
def Obligations.SampleStepRendersTheVoice : Prop :=
  ∀ (s : State) (rest : List Input), s.inputs = .sample :: rest → s.params.audioReady = true →
    (s.voice.active = true → ∃ v, step s = .next
        { s with
          inputs := rest
          out := s.out ++ [.audioOut v]
          voice := { s.voice with
            theta := s.voice.theta + s.voice.freq / 44100 - ((s.voice.theta + s.voice.freq / 44100).floor : Rat)
            elapsed := s.voice.elapsed + 1
            active := decide (s.voice.elapsed + 1 ≠ s.voice.total) } } ∧
      ∀ num : Config.Numerics, v.value num = num.SIN s.voice.theta * (s.voice.vol : Real)
        * ((min 1 (min ((s.voice.elapsed : Rat) / 882) (((s.voice.total : Rat) - s.voice.elapsed) / 882)) : Rat) : Real)
        * (3 / 10)) ∧
    (s.voice.active = false → step s = .next { s with inputs := rest, out := s.out ++ [.audioOut (.exact 0)] })

/-- R265; that the input is consumed is the model's choice (log 11): no SAMPLE step occurs when AUDIO_READY = false. -/
def Obligations.NoSampleWithoutAudio : Prop :=
  ∀ (s : State) (rest : List Input), s.inputs = .sample :: rest → s.params.audioReady = false →
    step s = .next { s with inputs := rest }

/-- R145, R146, R56: after a trigger and with no other, whatever FRAME steps and bus operations interleave, the n-th SAMPLE
step emits the closed form, the voice is active for exactly T of them, and 0 is emitted ever after. -/
def Obligations.TriggeredVoiceRendersItsClosedForm : Prop :=
  ∀ (s : State) (l rest : List Input) (f vol : Rat) (T : Nat), s.params.audioReady = true → 0 < T →
    s.voice = ⟨true, f, 0, vol, T, 0⟩ → s.inputs = l ++ rest → BusSteps l.length s (fun i u => ¬ Triggers i u) →
    ∃ t es, Sys2Proof.core.run l.length s = .next t ∧ t.inputs = rest ∧ t.out = s.out ++ es ∧
      t.voice.elapsed = min T (l.count .sample) ∧
      t.voice.active = decide (l.count .sample < T) ∧
      t.voice.theta = phase f (min T (l.count .sample)) ∧
      (samples es).length = l.count .sample ∧
      ∀ n, n < l.count .sample → ∃ v, (samples es)[n]? = some v ∧ ∀ num : Config.Numerics, v.value num =
        if n < T then num.SIN (phase f n) * (vol : Real) * ((env n T : Rat) : Real) * (3 / 10) else 0

/-- R143, R153: the envelope by its pieces for a voice of at least 2F samples, and its bounds for every voice. -/
def Obligations.EnvelopeShape : Prop :=
  (∀ n T : Nat, 1764 ≤ T → n < T → env n T = envelope n T) ∧
  (∀ n T : Nat, n < T → 0 ≤ env n T ∧ env n T ≤ 1) ∧
  (∀ n T : Nat, T < 1764 → n < T → env n T = min ((n : Rat) / 882) (((T : Rat) - n) / 882))

/-- R154: every value a step emits is at most 3/10 of the volume, and at most 3/10, under every SIN that R149 allows. -/
def Obligations.EmittedValuesAreBounded : Prop :=
  ∀ (s t : State) (es : List Event) (v : AudioValue) (num : Config.Numerics), s.Good → step s = .next t →
    t.out = s.out ++ es → .audioOut v ∈ es →
    |v.value num| ≤ 3 / 10 * (s.voice.vol : Real) ∧ 3 / 10 * (s.voice.vol : Real) ≤ 3 / 10

/-- R147, R56(a): whatever voice sounded, a SAMPLE step right after a PLAYFREQ renders the new voice at elapsed 0. -/
def Obligations.SampleAfterTriggerRendersTheNewVoice : Prop :=
  ∀ (s : State) (fc : BitVec 8) (dc wt : BitVec 4) (rest : List Input), s.params.audioReady = true →
    s.inputs = .bus (encode (.playfreq fc dc wt)) :: .sample :: rest →
    ∃ t, Sys2Proof.core.run 2 s = .next t ∧ t.inputs = rest ∧ t.out = s.out ++ [.audioOut (.exact 0)] ∧
      t.voice.active = true ∧ t.voice.elapsed = 1 ∧
      ∃ f, t.voice.freq = f ∧ 198 ≤ f ∧ f ≤ 3047 ∧ t.voice.theta = f / 44100

/-- R150: the shaper, for every frequency and duration. -/
def Obligations.ShaperAdjustsFrequencyOrDuration : Prop :=
  ∀ (f : Rat) (T : Nat),
    shape f 0 T = (f, T) ∧ shape f 1 T = (f, 4 * T / 5) ∧ shape f 2 T = (11 * f / 10, T) ∧ shape f 3 T = (9 * f / 10, T)

/-- R152: the oscillator does not clamp; at 22050 Hz the phase stays at 0 or 1/2 and every value is 0. -/
def Obligations.HalfRateVoiceIsSilent : Prop :=
  ∀ (s t : State) (rest : List Input), s.inputs = .sample :: rest → s.params.audioReady = true →
    s.voice.freq = 22050 → s.voice.theta = 0 ∨ s.voice.theta = 1 / 2 → step s = .next t →
    t.out = s.out ++ [.audioOut (.exact 0)] ∧ t.voice.freq = 22050 ∧ (t.voice.theta = 0 ∨ t.voice.theta = 1 / 2)

/-! ## The key-state tracker -/

/-- R185: one FRAME step, in a state whose timers are present only with frames left (R23). Every key is ticked in the same
step, and the keys at 1 are un-highlighted once each, in some order. -/
def Obligations.FrameStepTicksEveryTimer : Prop :=
  ∀ (s : State) (rest : List Input), s.inputs = .frame :: rest → (∀ k, s.timer k ≠ some 0) →
    ∃ (t : State) (ks : List Key) (d : List Degrade) (n : Nat), step s = .next t ∧
      t = { s with
        inputs := rest, hl := t.hl, degrades := d, drawn := n
        out := s.out ++ toVisual s (ks.map fun k => .highlight k false) } ∧
      ks.Nodup ∧ (∀ k, k ∈ ks ↔ s.timer k = some 1) ∧
      ∀ k, t.timer k = if s.timer k = some 1 then none else (s.timer k).map (· - 1)

/-- R186, R56: with no later trigger of the key, whatever SAMPLE steps and bus operations interleave, a timer at N stays up
through N - 1 FRAME steps, the N-th removes it, and the key is un-highlighted exactly once (with no event when
VISUAL_READY = false, R265). -/
def Obligations.TimerRunsItsFrames : Prop :=
  ∀ (s : State) (l rest : List Input) (k : Key) (N : Nat), 0 < N → s.timer k = some N →
    s.inputs = l ++ rest → BusSteps l.length s (fun i u => ¬ Highlights k i u) →
    ∃ t es, Sys2Proof.core.run l.length s = .next t ∧ t.inputs = rest ∧ t.out = s.out ++ es ∧
      t.timer k = (if l.count .frame < N then some (N - l.count .frame) else none) ∧
      es.count (.highlight k false) = if l.count .frame < N ∨ s.params.visualReady = false then 0 else 1

/-! ## Backend readiness -/

/-- R265, R188: two runs that differ in VISUAL_READY alone agree on everything but the visual events (and the model's trace). -/
def Obligations.VisualReadinessOnlyDropsEvents : Prop :=
  ∀ (s t : State) (n : Nat), s.params.visualReady = true → Sys2Proof.core.run n s = .next t →
    ∃ es d, t.out = s.out ++ es ∧
      Sys2Proof.core.run n { s with params := { s.params with visualReady := false } } = .next
        { t with
          params := { t.params with visualReady := false }
          degrades := d
          out := s.out ++ es.filter fun e => !e.isVisual }

/-- R265: two runs that differ in AUDIO_READY alone agree on bindings, timers, cursor, reads and non-audio events; without
the audio backend the voice never changes and no audio event is emitted. That the run without audio consumes its SAMPLE
inputs is the model's choice (log 11). -/
def Obligations.AudioReadinessOnlyDropsAudio : Prop :=
  ∀ (s t : State) (n : Nat), s.params.audioReady = true → Sys2Proof.core.run n s = .next t →
    ∃ es d, t.out = s.out ++ es ∧
      Sys2Proof.core.run n { s with params := { s.params with audioReady := false } } = .next
        { t with
          params := { t.params with audioReady := false }
          degrades := d
          voice := s.voice
          out := s.out ++ es.filter fun e => !e.isAudio }
end

