-- ==== Sys2Proof/Laws/Audio.lean ====
section
/-! SUPPORT. The audio datapath's own laws: the value of a sample under every SIN (R149), the fraction (R13), the envelope's
bounds (R143), and the mathematical sine as one SIN. -/

namespace Sys2Proof.Machine

/-- Whatever SIN is, an audio value is SIN(theta) · gain: the exact cases use R149's properties only (log 6). -/
theorem ofSine_value (num : Config.Numerics) (theta gain : Rat) :
    (AudioValue.ofSine theta gain).value num = num.SIN theta * (gain : Real) := by
  unfold AudioValue.ofSine
  split_ifs with h0 h1 h2
  · rcases h0 with rfl | rfl | rfl
    · simp [AudioValue.value]
    · simp [AudioValue.value, num.zero]
    · rw [num.half]; simp [AudioValue.value]
  · rw [h1, num.quarter]; simp [AudioValue.value]
  · rw [h2, num.threeQuarters]; simp [AudioValue.value]
  · rfl

theorem frac_nonneg (x : Rat) : 0 ≤ frac x := by
  have := Rat.floor_le x
  unfold frac
  linarith

theorem frac_lt_one (x : Rat) : frac x < 1 := by
  have := Rat.lt_floor_add_one x
  unfold frac
  push_cast at this
  linarith

/-- A whole number of turns does not change the phase. -/
theorem frac_add_int (x : Rat) (z : Int) : frac (x + z) = frac x := by
  unfold frac
  have h : (x + (z : Rat)).floor = x.floor + z := by
    exact Int.floor_add_intCast x z
  rw [h]
  push_cast
  ring

theorem frac_frac_add (x y : Rat) : frac (frac x + y) = frac (x + y) := by
  have h : frac x + y = x + y + ((-x.floor : Int) : Rat) := by
    unfold frac
    push_cast
    ring
  rw [h, frac_add_int]

theorem frac_eq_self {x : Rat} (h0 : 0 ≤ x) (h1 : x < 1) : frac x = x := by
  have h : x.floor = 0 := by
    exact Int.floor_eq_zero_iff.2 ⟨h0, h1⟩
  simp [frac, h]

theorem fade_pos : (0 : Rat) < (Config.fade : Rat) := by norm_num [Config.fade, Config.sampleRate]

theorem env_nonneg {n T : Nat} (h : n ≤ T) : 0 ≤ env n T := by
  have h' : (n : Rat) ≤ T := by exact_mod_cast h
  exact le_min zero_le_one (le_min (div_nonneg (Nat.cast_nonneg n) fade_pos.le)
    (div_nonneg (by linarith) fade_pos.le))

theorem env_le_one (n T : Nat) : env n T ≤ 1 := min_le_left _ _

/-- The first sample of every voice has envelope 0 (R143, R144). -/
theorem env_zero (T : Nat) : env 0 T = 0 := by
  have h : (0 : Rat) ≤ ((T : Rat) - ((0 : Nat) : Rat)) / (Config.fade : Rat) :=
    div_nonneg (by simp) fade_pos.le
  unfold env
  rw [Nat.cast_zero] at *
  rw [zero_div, min_eq_left h, min_eq_right zero_le_one]

/-- The mathematical sine in turns meets every property R149 lists: `Config.Numerics` is inhabited. -/
noncomputable def sine : Config.Numerics where
  SIN θ := Real.sin (2 * Real.pi * (θ : Real))
  zero := by simp
  quarter := by
    have h : 2 * Real.pi * (((1 / 4 : Rat) : Rat) : Real) = Real.pi / 2 := by push_cast; ring
    rw [h, Real.sin_pi_div_two]
  half := by
    have h : 2 * Real.pi * (((1 / 2 : Rat) : Rat) : Real) = Real.pi := by push_cast; ring
    rw [h, Real.sin_pi]
  threeQuarters := by
    have h : 2 * Real.pi * (((3 / 4 : Rat) : Rat) : Real) = Real.pi / 2 + Real.pi := by push_cast; ring
    rw [h, Real.sin_add_pi, Real.sin_pi_div_two]
  bounded := fun _ _ _ => Real.abs_sin_le_one _
  odd := by
    intro θ _ _
    have h : 2 * Real.pi * (((1 - θ : Rat) : Rat) : Real) = 2 * Real.pi - 2 * Real.pi * (θ : Real) := by
      push_cast; ring
    rw [h, Real.sin_two_pi_sub]

end Sys2Proof.Machine
end

