-- ==== Sys2Proof/Laws/Encoding.lean ====
section
/-! SUPPORT. Joining and cutting bit fields: what the encoder and decoder proofs need of words. -/

namespace Sys2Proof

theorem toNat_append_add {m n : Nat} (x : BitVec m) (y : BitVec n) :
    (x ++ y).toNat = x.toNat * 2 ^ n + y.toNat := by
  rw [BitVec.toNat_append, ← Nat.shiftLeft_add_eq_or_of_lt y.isLt, Nat.shiftLeft_eq]

theorem extract_low {m n : Nat} (x : BitVec m) (y : BitVec n) : (x ++ y).extractLsb' 0 n = y := by
  apply BitVec.eq_of_toNat_eq
  rw [BitVec.extractLsb'_toNat, toNat_append_add, Nat.shiftRight_zero, Nat.mul_add_mod_self_right,
    Nat.mod_eq_of_lt y.isLt]

theorem extract_high {m n : Nat} (x : BitVec m) (y : BitVec n) : (x ++ y).extractLsb' n m = x := by
  apply BitVec.eq_of_toNat_eq
  simp only [BitVec.extractLsb'_toNat, toNat_append_add, Nat.shiftRight_eq_div_pow]
  rw [Nat.mul_comm, Nat.mul_add_div (Nat.two_pow_pos n), Nat.div_eq_of_lt y.isLt, Nat.add_zero,
    Nat.mod_eq_of_lt x.isLt]

/-- The middle field of the words of R73 and R79. -/
theorem extract_middle (x y : BitVec 4) (z : BitVec 8) : (x ++ y ++ z).extractLsb' 8 4 = y := by
  apply BitVec.eq_of_toNat_eq
  simp only [BitVec.extractLsb'_toNat, toNat_append_add, Nat.shiftRight_eq_div_pow]
  omega

/-- The top field of the words of R73 and R79. -/
theorem extract_top (x y : BitVec 4) (z : BitVec 8) : (x ++ y ++ z).extractLsb' 12 4 = x := by
  apply BitVec.eq_of_toNat_eq
  simp only [BitVec.extractLsb'_toNat, toNat_append_add, Nat.shiftRight_eq_div_pow]
  omega

theorem join_bytes (w : Word) : w.extractLsb' 8 8 ++ w.extractLsb' 0 8 = w := by
  apply BitVec.eq_of_toNat_eq
  simp only [BitVec.extractLsb'_toNat, toNat_append_add, Nat.shiftRight_eq_div_pow]
  omega

theorem join_nibbles (w : Word) : w.extractLsb' 12 4 ++ w.extractLsb' 8 4 ++ w.extractLsb' 0 8 = w := by
  apply BitVec.eq_of_toNat_eq
  simp only [BitVec.extractLsb'_toNat, toNat_append_add, Nat.shiftRight_eq_div_pow]
  omega

/-- The script's shifts and ORs of two bytes are the encoder's concatenation (R84). -/
theorem shift_or_bytes (a b : BitVec 8) : (a.setWidth 16 <<< 8) ||| b.setWidth 16 = a ++ b := by
  apply BitVec.eq_of_getLsbD_eq
  intro i hi
  simp only [BitVec.getLsbD_or, BitVec.getLsbD_shiftLeft, BitVec.getLsbD_setWidth, BitVec.getLsbD_append]
  interval_cases i <;> simp

/-- The script's shifts and ORs of two nibbles and a byte are the encoder's concatenation (R84). -/
theorem shift_or_nibbles (a b : BitVec 4) (c : BitVec 8) :
    (a.setWidth 16 <<< 12) ||| (b.setWidth 16 <<< 8) ||| c.setWidth 16 = a ++ b ++ c := by
  apply BitVec.eq_of_getLsbD_eq
  intro i hi
  simp only [BitVec.getLsbD_or, BitVec.getLsbD_shiftLeft, BitVec.getLsbD_setWidth, BitVec.getLsbD_append]
  interval_cases i <;> simp

theorem sel_rd_toNat (a : Word) : (Transaction.rd a).sel.toNat = a.toNat := by
  simp only [Transaction.sel]
  rw [toNat_append_add]
  simp

theorem sel_wr_toNat (a w : Word) : (Transaction.wr a w).sel.toNat = 0x10000 + a.toNat := by
  simp only [Transaction.sel]
  rw [toNat_append_add]
  simp

/-- The low byte of a word, as a number. -/
theorem low_byte (w : Word) : w.extractLsb' 0 8 = BitVec.ofNat 8 w.toNat := by
  apply BitVec.eq_of_toNat_eq
  simp

/-- R111: the select test is `w <= 0x00FF`. -/
theorem high_byte_eq_zero (w : Word) : w.extractLsb' 8 8 = 0 ↔ w.toNat ≤ 0xFF := by
  rw [← BitVec.toNat_inj]
  simp [Nat.shiftRight_eq_div_pow]
  omega

theorem key_setWidth (c : Key) : c.setWidth 16 = BitVec.ofNat 16 c.toNat := by
  apply BitVec.eq_of_toNat_eq
  simp

end Sys2Proof

namespace Sys2Proof.Machine

/-- R103: no stored key symbol is an upper-case letter, and lower-casing twice is lower-casing once. -/
theorem lower_lower (c : Key) : lower (lower c) = lower c := by
  revert c
  decide

end Sys2Proof.Machine
end

