-- ==== Sys2Proof/Laws/State.lean ====
section
/-! SUPPORT. What each primitive update does to each field of the state, so that no proof unfolds a record update. -/

namespace Sys2Proof.Machine

variable (s : State)

@[simp] theorem emit_voice (e : Event) : (s.emit e).voice = s.voice := rfl
@[simp] theorem emit_bind (e : Event) : (s.emit e).bind = s.bind := rfl
@[simp] theorem emit_hl (e : Event) : (s.emit e).hl = s.hl := rfl
@[simp] theorem emit_cursor (e : Event) : (s.emit e).cursor = s.cursor := rfl
@[simp] theorem emit_out (e : Event) : (s.emit e).out = s.out ++ [e] := rfl
@[simp] theorem emit_params (e : Event) : (s.emit e).params = s.params := rfl
@[simp] theorem emit_busResult (e : Event) : (s.emit e).busResult = s.busResult := rfl
@[simp] theorem emit_inputs (e : Event) : (s.emit e).inputs = s.inputs := rfl
@[simp] theorem emit_keyAnswers (e : Event) : (s.emit e).keyAnswers = s.keyAnswers := rfl
@[simp] theorem emit_drawn (e : Event) : (s.emit e).drawn = s.drawn := rfl
@[simp] theorem emit_degrades (e : Event) : (s.emit e).degrades = s.degrades := rfl

@[simp] theorem degrade_voice (d : Degrade) : (s.degrade d).voice = s.voice := rfl
@[simp] theorem degrade_bind (d : Degrade) : (s.degrade d).bind = s.bind := rfl
@[simp] theorem degrade_hl (d : Degrade) : (s.degrade d).hl = s.hl := rfl
@[simp] theorem degrade_cursor (d : Degrade) : (s.degrade d).cursor = s.cursor := rfl
@[simp] theorem degrade_out (d : Degrade) : (s.degrade d).out = s.out := rfl
@[simp] theorem degrade_params (d : Degrade) : (s.degrade d).params = s.params := rfl
@[simp] theorem degrade_busResult (d : Degrade) : (s.degrade d).busResult = s.busResult := rfl
@[simp] theorem degrade_inputs (d : Degrade) : (s.degrade d).inputs = s.inputs := rfl
@[simp] theorem degrade_keyAnswers (d : Degrade) : (s.degrade d).keyAnswers = s.keyAnswers := rfl
@[simp] theorem degrade_drawn (d : Degrade) : (s.degrade d).drawn = s.drawn := rfl
@[simp] theorem degrade_degrades (d : Degrade) : (s.degrade d).degrades = s.degrades ++ [d] := rfl

@[simp] theorem answer_voice (w : Word) : (s.answer w).voice = s.voice := rfl
@[simp] theorem answer_bind (w : Word) : (s.answer w).bind = s.bind := rfl
@[simp] theorem answer_hl (w : Word) : (s.answer w).hl = s.hl := rfl
@[simp] theorem answer_cursor (w : Word) : (s.answer w).cursor = s.cursor := rfl
@[simp] theorem answer_out (w : Word) : (s.answer w).out = s.out := rfl
@[simp] theorem answer_params (w : Word) : (s.answer w).params = s.params := rfl
@[simp] theorem answer_busResult (w : Word) : (s.answer w).busResult = some w := rfl
@[simp] theorem answer_inputs (w : Word) : (s.answer w).inputs = s.inputs := rfl
@[simp] theorem answer_keyAnswers (w : Word) : (s.answer w).keyAnswers = s.keyAnswers := rfl
@[simp] theorem answer_drawn (w : Word) : (s.answer w).drawn = s.drawn := rfl
@[simp] theorem answer_degrades (w : Word) : (s.answer w).degrades = s.degrades := rfl

@[simp] theorem acknowledge_voice : s.acknowledge.voice = s.voice := rfl
@[simp] theorem acknowledge_bind : s.acknowledge.bind = s.bind := rfl
@[simp] theorem acknowledge_hl : s.acknowledge.hl = s.hl := rfl
@[simp] theorem acknowledge_cursor : s.acknowledge.cursor = s.cursor := rfl
@[simp] theorem acknowledge_out : s.acknowledge.out = s.out := rfl
@[simp] theorem acknowledge_params : s.acknowledge.params = s.params := rfl
@[simp] theorem acknowledge_busResult : s.acknowledge.busResult = none := rfl
@[simp] theorem acknowledge_inputs : s.acknowledge.inputs = s.inputs := rfl
@[simp] theorem acknowledge_keyAnswers : s.acknowledge.keyAnswers = s.keyAnswers := rfl
@[simp] theorem acknowledge_drawn : s.acknowledge.drawn = s.drawn := rfl
@[simp] theorem acknowledge_degrades : s.acknowledge.degrades = s.degrades := rfl

@[simp] theorem setBinding_voice (k : Key) (b : Binding) : (s.setBinding k b).voice = s.voice := rfl
@[simp] theorem setBinding_bind (k : Key) (b : Binding) : (s.setBinding k b).bind = s.bind.set k.toNat b := rfl
@[simp] theorem setBinding_hl (k : Key) (b : Binding) : (s.setBinding k b).hl = s.hl := rfl
@[simp] theorem setBinding_cursor (k : Key) (b : Binding) : (s.setBinding k b).cursor = s.cursor := rfl
@[simp] theorem setBinding_out (k : Key) (b : Binding) : (s.setBinding k b).out = s.out := rfl
@[simp] theorem setBinding_params (k : Key) (b : Binding) : (s.setBinding k b).params = s.params := rfl
@[simp] theorem setBinding_busResult (k : Key) (b : Binding) : (s.setBinding k b).busResult = s.busResult := rfl
@[simp] theorem setBinding_inputs (k : Key) (b : Binding) : (s.setBinding k b).inputs = s.inputs := rfl
@[simp] theorem setBinding_keyAnswers (k : Key) (b : Binding) : (s.setBinding k b).keyAnswers = s.keyAnswers := rfl
@[simp] theorem setBinding_drawn (k : Key) (b : Binding) : (s.setBinding k b).drawn = s.drawn := rfl
@[simp] theorem setBinding_degrades (k : Key) (b : Binding) : (s.setBinding k b).degrades = s.degrades := rfl

@[simp] theorem setTimer_voice (k : Key) (n : Option Nat) : (s.setTimer k n).voice = s.voice := rfl
@[simp] theorem setTimer_bind (k : Key) (n : Option Nat) : (s.setTimer k n).bind = s.bind := rfl
@[simp] theorem setTimer_hl (k : Key) (n : Option Nat) : (s.setTimer k n).hl = s.hl.set k.toNat n := rfl
@[simp] theorem setTimer_cursor (k : Key) (n : Option Nat) : (s.setTimer k n).cursor = s.cursor := rfl
@[simp] theorem setTimer_out (k : Key) (n : Option Nat) : (s.setTimer k n).out = s.out := rfl
@[simp] theorem setTimer_params (k : Key) (n : Option Nat) : (s.setTimer k n).params = s.params := rfl
@[simp] theorem setTimer_busResult (k : Key) (n : Option Nat) : (s.setTimer k n).busResult = s.busResult := rfl
@[simp] theorem setTimer_inputs (k : Key) (n : Option Nat) : (s.setTimer k n).inputs = s.inputs := rfl
@[simp] theorem setTimer_keyAnswers (k : Key) (n : Option Nat) : (s.setTimer k n).keyAnswers = s.keyAnswers := rfl
@[simp] theorem setTimer_drawn (k : Key) (n : Option Nat) : (s.setTimer k n).drawn = s.drawn := rfl
@[simp] theorem setTimer_degrades (k : Key) (n : Option Nat) : (s.setTimer k n).degrades = s.degrades := rfl

@[simp] theorem setCursor_voice (c : Option Key) : (s.setCursor c).voice = s.voice := rfl
@[simp] theorem setCursor_bind (c : Option Key) : (s.setCursor c).bind = s.bind := rfl
@[simp] theorem setCursor_hl (c : Option Key) : (s.setCursor c).hl = s.hl := rfl
@[simp] theorem setCursor_cursor (c : Option Key) : (s.setCursor c).cursor = c := rfl
@[simp] theorem setCursor_out (c : Option Key) : (s.setCursor c).out = s.out := rfl
@[simp] theorem setCursor_params (c : Option Key) : (s.setCursor c).params = s.params := rfl
@[simp] theorem setCursor_busResult (c : Option Key) : (s.setCursor c).busResult = s.busResult := rfl
@[simp] theorem setCursor_inputs (c : Option Key) : (s.setCursor c).inputs = s.inputs := rfl
@[simp] theorem setCursor_keyAnswers (c : Option Key) : (s.setCursor c).keyAnswers = s.keyAnswers := rfl
@[simp] theorem setCursor_drawn (c : Option Key) : (s.setCursor c).drawn = s.drawn := rfl
@[simp] theorem setCursor_degrades (c : Option Key) : (s.setCursor c).degrades = s.degrades := rfl

@[simp] theorem setVoice_voice (v : Voice) : (s.setVoice v).voice = v := rfl
@[simp] theorem setVoice_bind (v : Voice) : (s.setVoice v).bind = s.bind := rfl
@[simp] theorem setVoice_hl (v : Voice) : (s.setVoice v).hl = s.hl := rfl
@[simp] theorem setVoice_cursor (v : Voice) : (s.setVoice v).cursor = s.cursor := rfl
@[simp] theorem setVoice_out (v : Voice) : (s.setVoice v).out = s.out := rfl
@[simp] theorem setVoice_params (v : Voice) : (s.setVoice v).params = s.params := rfl
@[simp] theorem setVoice_busResult (v : Voice) : (s.setVoice v).busResult = s.busResult := rfl
@[simp] theorem setVoice_inputs (v : Voice) : (s.setVoice v).inputs = s.inputs := rfl
@[simp] theorem setVoice_keyAnswers (v : Voice) : (s.setVoice v).keyAnswers = s.keyAnswers := rfl
@[simp] theorem setVoice_drawn (v : Voice) : (s.setVoice v).drawn = s.drawn := rfl
@[simp] theorem setVoice_degrades (v : Voice) : (s.setVoice v).degrades = s.degrades := rfl

theorem binding_setBinding (k j : Key) (b : Binding) :
    (s.setBinding k b).binding j = if j = k then b else s.binding j := by
  simp only [State.binding, State.setBinding, Vector.getElem_set, BitVec.toNat_inj, eq_comm]

@[simp] theorem binding_setBinding_same (k : Key) (b : Binding) : (s.setBinding k b).binding k = b := by
  simp [binding_setBinding]

theorem timer_setTimer (k j : Key) (n : Option Nat) :
    (s.setTimer k n).timer j = if j = k then n else s.timer j := by
  simp only [State.timer, State.setTimer, Vector.getElem_set, BitVec.toNat_inj, eq_comm]

@[simp] theorem timer_setTimer_same (k : Key) (n : Option Nat) : (s.setTimer k n).timer k = n := by
  simp [timer_setTimer]

/-- Two binding files are equal when every key's entry is. -/
theorem bind_ext {s t : State} (h : ∀ k, s.binding k = t.binding k) : s.bind = t.bind := by
  apply Vector.ext
  intro i hi
  simpa [State.binding, Nat.mod_eq_of_lt hi] using h (BitVec.ofNat 8 i)

/-- Two timer files are equal when every key's entry is. -/
theorem hl_ext {s t : State} (h : ∀ k, s.timer k = t.timer k) : s.hl = t.hl := by
  apply Vector.ext
  intro i hi
  simpa [State.timer, Nat.mod_eq_of_lt hi] using h (BitVec.ofNat 8 i)

@[simp] theorem resetWith_binding (p : Config.Params) (k : Key) : (State.resetWith p).binding k = {} := by
  simp [State.binding, State.resetWith]

@[simp] theorem resetWith_timer (p : Config.Params) (k : Key) : (State.resetWith p).timer k = none := by
  simp [State.timer, State.resetWith]

end Sys2Proof.Machine
end

