-- ==== Sys2Proof/Laws/Ops.lean ====
section
/-! SUPPORT. One lemma per shared operation: everything it can do, in one record update. Provers cite these instead of
unfolding the operations. -/

namespace Sys2Proof.Machine

variable (s : State)

theorem degradeIf_eq (b : Bool) (d : Degrade) :
    s.degradeIf b d = { s with degrades := s.degrades ++ if b = true then [d] else [] } := by
  unfold State.degradeIf State.degrade
  split <;> simp

theorem emitAudio_eq (e : Event) :
    s.emitAudio e = { s with
      out := s.out ++ if s.params.audioReady = true then [e] else []
      degrades := s.degrades ++ if s.params.audioReady = true then [] else [.backendUninit] } := by
  unfold State.emitAudio State.emit State.degrade
  split <;> simp

theorem emitVisual_eq (e : Event) :
    s.emitVisual e = { s with
      out := s.out ++ if s.params.visualReady = true then [e] else []
      degrades := s.degrades ++ if s.params.visualReady = true then [] else [.backendUninit] } := by
  unfold State.emitVisual State.emit State.degrade
  split <;> simp

/-- R141, R265: a trigger writes all of the voice or, without the audio backend, nothing of it. -/
theorem trigger_eq (f : Rat) (T : Nat) (vol : Rat) :
    s.trigger f T vol = { s with
      voice := if s.params.audioReady = true then ⟨decide (0 < T), f, 0, vol, T, 0⟩ else s.voice
      degrades := s.degrades ++ if s.params.audioReady = true then [] else [.backendUninit] } := by
  unfold State.trigger State.setVoice State.degrade activeAfterTrigger
  split <;> simp

/-- R113. -/
theorem playSample_eq (id : Word) :
    s.playSample id = { s with
      out := s.out ++ if id.toNat < s.params.nSamples.toNat ∧ s.params.audioReady = true then [.playSample id] else []
      voice := if id.toNat < s.params.nSamples.toNat ∨ s.params.audioReady = false then s.voice
        else ⟨true, 220, 0, 1, 4410, 0⟩
      degrades := s.degrades ++ (if id.toNat < s.params.nSamples.toNat then [] else [.sampleRange])
        ++ if s.params.audioReady = true then [] else [.backendUninit] } := by
  unfold State.playSample
  split
  · simp_all [emitAudio_eq]
  · cases h : s.params.audioReady <;>
      simp_all [trigger_eq, State.degrade, Config.fallbackFreq, Config.fallbackSamples, Config.volume]

theorem triggerHighlight_eq (k : Key) (n : Nat) :
    s.triggerHighlight k n = { s with
      hl := s.hl.set k.toNat (some n)
      out := s.out ++ if s.params.visualReady = true then [.highlight k true] else []
      degrades := s.degrades ++ if s.params.visualReady = true then [] else [.backendUninit] } := by
  simp [State.triggerHighlight, emitVisual_eq, State.setTimer]

theorem assignColor_eq (k : Key) (c : BitVec 8) :
    s.assignColor k c = { s with
      bind := s.bind.set k.toNat { s.binding k with color := some c }
      out := s.out ++ if s.params.visualReady = true then
        [.color k (rgb c).1 (rgb c).2.1 (rgb c).2.2] else []
      degrades := s.degrades ++ if s.params.visualReady = true then [] else [.backendUninit] } := by
  simp [State.assignColor, emitVisual_eq, State.setBinding]

/-- The un-highlights go out one by one in the given order, all of them or none (R185, R265). -/
theorem unhighlightAll_eq (ks : List Key) :
    s.unhighlightAll ks = { s with
      out := s.out ++ if s.params.visualReady = true then ks.map fun k => .highlight k false else []
      degrades := s.degrades ++
        if s.params.visualReady = true then [] else List.replicate ks.length .backendUninit } := by
  unfold State.unhighlightAll
  induction ks generalizing s with
  | nil => simp
  | cons k ks ih =>
    rw [List.foldl_cons, ih, emitVisual_eq]
    split <;> simp_all [List.replicate_succ]

@[simp] theorem mem_allKeys (k : Key) : k ∈ allKeys :=
  List.mem_map.2 ⟨k.toNat, List.mem_range.2 k.isLt, by simp⟩

theorem allKeys_nodup : allKeys.Nodup := by
  refine List.Nodup.map_on ?_ List.nodup_range
  intro x hx y hy h
  have hx := List.mem_range.1 hx
  have hy := List.mem_range.1 hy
  have := congrArg BitVec.toNat h
  simpa [Nat.mod_eq_of_lt hx, Nat.mod_eq_of_lt hy] using this

/-- The timer file in the order of the keys. -/
theorem hl_toList : s.hl.toList = allKeys.map s.timer := by
  apply List.ext_getElem
  · simp [allKeys]
  · intro i h _
    have hi : i < 256 := by simpa using h
    simp [allKeys, State.timer, Nat.mod_eq_of_lt hi]

theorem expiring_eq : s.expiring = allKeys.filter fun k => timerEnds (s.timer k) := by
  rw [State.expiring, hl_toList]
  induction allKeys with
  | nil => rfl
  | cons k ks ih => by_cases h : timerEnds (s.timer k) = true <;> simp_all

theorem tickAll_eq (hl : Vector (Option Nat) 256) : tickAll hl = hl.map tickTimer := by
  apply Vector.ext
  intro i hi
  simp [tickAll]

theorem mem_expiring (k : Key) : k ∈ s.expiring ↔ timerEnds (s.timer k) = true := by
  simp [expiring_eq]

/-- Whatever the free rank is, the order is a permutation of the keys whose timers end (R185; log 5). -/
theorem expiringInOrder_perm : s.expiringInOrder.Perm s.expiring := List.perm_insertionSort _ _

theorem expiringInOrder_nodup : s.expiringInOrder.Nodup :=
  (expiringInOrder_perm s).nodup_iff.2 (expiring_eq s ▸ allKeys_nodup.filter _)

/-- R185, whole. -/
theorem frameStep_eq :
    s.frameStep = { s with
      hl := s.hl.map tickTimer
      drawn := s.drawn + s.expiring.length
      out := s.out ++ if s.params.visualReady = true then
        s.expiringInOrder.map fun k => .highlight k false else []
      degrades := s.degrades ++
        if s.params.visualReady = true then [] else List.replicate s.expiringInOrder.length .backendUninit } := by
  simp [State.frameStep, unhighlightAll_eq, tickAll_eq]

@[simp] theorem timer_frameStep (k : Key) : s.frameStep.timer k = tickTimer (s.timer k) := by
  simp [frameStep_eq, State.timer]

/-- The next input touches only the input list and the draw counter. -/
theorem takeInput_eq :
    s.takeInput.2 = { s with
      inputs := s.inputs.tail
      drawn := if s.inputs = [] then s.drawn + 1 else s.drawn } := by
  unfold State.takeInput
  split <;> simp_all

theorem takeInput_cons {i : Input} {rest : List Input} (h : s.inputs = i :: rest) :
    s.takeInput = (i, { s with inputs := rest }) := by
  simp [State.takeInput, h]

/-- The host's draw touches only the pending answers and the draw counter. -/
theorem drawKey_eq :
    s.drawKey.2 = { s with
      keyAnswers := s.keyAnswers.tail
      drawn := if s.keyAnswers = [] then s.drawn + 1 else s.drawn } := by
  unfold State.drawKey
  split <;> simp_all

theorem drawKey_fst : s.drawKey.1 = s.keyAnswers.head?.getD (Config.freeKey s.drawn) := by
  unfold State.drawKey
  split <;> simp_all

/-- R103: no stored key symbol is an upper-case letter. -/
theorem upperCase_lower (c : Key) : upperCase (lower c) = false := by
  revert c; decide

end Sys2Proof.Machine
end

