-- ==== Sys2Proof/Laws/PerInstr.lean ====
section
/-! SUPPORT. Statements made per instruction: one lemma per constructor of Instr. -/

namespace Sys2Proof.Laws.EncodingRow

/-- R71: a well-formed instruction's selector is accepted by the row of the opcode table that bears its mnemonic. -/
def Statement (i : Instr) : Prop :=
  i.wellFormed = true → ∃ r ∈ opcodeTable, r.mnemonic = i.mnemonic ∧ r.accepts (encode i).sel = true

/-- The row of an UNKNOWN_RD looks at the direction bit only. -/
theorem accepts_rd (a : Word) :
    OpcodeRow.accepts ⟨"UNKNOWN_RD", 0x00000, 0x10000⟩ (Transaction.rd a).sel = true := by
  refine beq_iff_eq.2 (BitVec.eq_of_getLsbD_eq fun i hi => ?_)
  simp only [Transaction.sel, BitVec.getLsbD_and, BitVec.getLsbD_append]
  interval_cases i <;> simp

/-- The row of an UNKNOWN_WR looks at the direction bit only. -/
theorem accepts_wr (a w : Word) :
    OpcodeRow.accepts ⟨"UNKNOWN_WR", 0x10000, 0x10000⟩ (Transaction.wr a w).sel = true := by
  refine beq_iff_eq.2 (BitVec.eq_of_getLsbD_eq fun i hi => ?_)
  simp only [Transaction.sel, BitVec.getLsbD_and, BitVec.getLsbD_append]
  interval_cases i <;> simp

/-- A write port's row looks at the whole selector and not at the data word. -/
theorem accepts_port {r : OpcodeRow} {a : Word} (w : Word) (h : r.accepts (1#1 ++ a) = true) :
    r.accepts (Transaction.wr a w).sel = true := h

theorem getkey : Statement .getkey := fun _ => ⟨⟨"GETKEY", 0x09000, 0x1FFFF⟩, by decide, rfl, rfl⟩
theorem playfreq (f : BitVec 8) (d t : BitVec 4) : Statement (.playfreq f d t) :=
  fun _ => ⟨⟨"PLAYFREQ", 0x19001, 0x1FFFF⟩, by decide, rfl, accepts_port _ (by decide)⟩
theorem playsmp (id : Word) : Statement (.playsmp id) :=
  fun _ => ⟨⟨"PLAYSMP", 0x19002, 0x1FFFF⟩, by decide, rfl, accepts_port _ (by decide)⟩
theorem showkey (k : Key) (x : BitVec 8) : Statement (.showkey k x) :=
  fun _ => ⟨⟨"SHOWKEY", 0x19003, 0x1FFFF⟩, by decide, rfl, accepts_port _ (by decide)⟩
theorem cfgfreq (w : Word) : Statement (.cfgfreq w) :=
  fun _ => ⟨⟨"CFGFREQ", 0x19004, 0x1FFFF⟩, by decide, rfl, accepts_port _ (by decide)⟩
theorem rdfreq : Statement .rdfreq := fun _ => ⟨⟨"RDFREQ", 0x09004, 0x1FFFF⟩, by decide, rfl, rfl⟩
theorem cfgsmp (w : Word) : Statement (.cfgsmp w) :=
  fun _ => ⟨⟨"CFGSMP", 0x19005, 0x1FFFF⟩, by decide, rfl, accepts_port _ (by decide)⟩
theorem cfgcol (w : Word) : Statement (.cfgcol w) :=
  fun _ => ⟨⟨"CFGCOL", 0x19006, 0x1FFFF⟩, by decide, rfl, accepts_port _ (by decide)⟩
theorem smpcount : Statement .smpcount := fun _ => ⟨⟨"SMPCOUNT", 0x09007, 0x1FFFF⟩, by decide, rfl, rfl⟩
theorem listsmp (w : Word) : Statement (.listsmp w) :=
  fun _ => ⟨⟨"LISTSMP", 0x19008, 0x1FFFF⟩, by decide, rfl, accepts_port _ (by decide)⟩
theorem playcomb (f i : BitVec 8) : Statement (.playcomb f i) :=
  fun _ => ⟨⟨"PLAYCOMB", 0x19009, 0x1FFFF⟩, by decide, rfl, accepts_port _ (by decide)⟩
theorem setmode (k : Key) (m t : BitVec 4) : Statement (.setmode k m t) :=
  fun _ => ⟨⟨"SETMODE", 0x1900A, 0x1FFFF⟩, by decide, rfl, accepts_port _ (by decide)⟩
theorem unknownRd (a : Word) : Statement (.unknownRd a) :=
  fun _ => ⟨⟨"UNKNOWN_RD", 0x00000, 0x10000⟩, by decide, rfl, accepts_rd a⟩
theorem unknownWr (a w : Word) : Statement (.unknownWr a w) :=
  fun _ => ⟨⟨"UNKNOWN_WR", 0x10000, 0x10000⟩, by decide, rfl, accepts_wr a w⟩

end Sys2Proof.Laws.EncodingRow
end

