-- ==== Sys2Proof/Laws/Run.lean ====
section
/-! SUPPORT. One step and runs of steps: unfolding lemmas, and the induction over a run said once. -/

namespace Sys2Proof.Machine

/-- A step with a pending input runs that input. -/
theorem step_cons {s : State} {i : Input} {rest : List Input} (h : s.inputs = i :: rest) :
    step s = runInput i { s with inputs := rest } := by
  simp [step, takeInput_cons s h]

@[simp] theorem runInput_bus (t : Transaction) (s : State) : runInput (.bus t) s = exec (decode t) s := rfl
@[simp] theorem runInput_sample (s : State) : runInput .sample s = .next s.sampleStep := rfl
@[simp] theorem runInput_frame (s : State) : runInput .frame s = .next s.frameStep := rfl

@[simp] theorem run_zero (s : State) : Host.Core.run Sys2Proof.core 0 s = .next s := rfl

theorem run_succ {s t : State} (h : step s = .next t) (n : Nat) :
    Host.Core.run Sys2Proof.core (n + 1) s = Host.Core.run Sys2Proof.core n t := by
  have h' : Sys2Proof.core.step s = Host.Outcome.next t := h
  simp only [Host.Core.run, h']

theorem sampleStep_eq (s : State) :
    s.sampleStep =
      if s.params.audioReady = true then
        if s.voice.active = true then
          { s with voice := s.voice.advance, out := s.out ++ [.audioOut s.voice.sampleValue] }
        else { s with out := s.out ++ [.audioOut (.exact 0)] }
      else s := rfl

@[simp] theorem timer_sampleStep (s : State) (k : Key) : s.sampleStep.timer k = s.timer k := by
  rw [sampleStep_eq]
  split_ifs <;> rfl

@[simp] theorem inputs_sampleStep (s : State) : s.sampleStep.inputs = s.inputs := by
  rw [sampleStep_eq]
  split_ifs <;> rfl

@[simp] theorem params_sampleStep (s : State) : s.sampleStep.params = s.params := by
  rw [sampleStep_eq]
  split_ifs <;> rfl

@[simp] theorem inputs_frameStep (s : State) : s.frameStep.inputs = s.inputs := by rw [frameStep_eq]
@[simp] theorem params_frameStep (s : State) : s.frameStep.params = s.params := by rw [frameStep_eq]
@[simp] theorem voice_frameStep (s : State) : s.frameStep.voice = s.voice := by rw [frameStep_eq]

/-- One more step at the end of a run. -/
theorem run_snoc {s t u : State} {n : Nat} (h : Host.Core.run Sys2Proof.core n s = .next t) (hu : step t = .next u) :
    Host.Core.run Sys2Proof.core (n + 1) s = .next u := by
  induction n generalizing s with
  | zero =>
    cases h
    exact run_succ hu 0
  | succ n ih =>
    cases hs : step s with
    | next v =>
      rw [run_succ hs] at h ⊢
      exact ih h
    | fault f => cases f
    | refused r =>
      have hs' : Sys2Proof.core.step s = .refused r := hs
      simp [Host.Core.run, hs'] at h

/-- Induction over the pending inputs of a run: a relation between the inputs run so far and the state they lead to
holds at the end when it holds at the start and every single input keeps it, in the states that the run reaches. -/
theorem run_inputs {P : List Input → State → Prop} {s : State} {l rest : List Input}
    (hl : s.inputs = l ++ rest) (start : P [] s)
    (keep : ∀ (i : Input) (done : List Input) (t : State) (todo : List Input), done.length < l.length →
      Host.Core.run Sys2Proof.core done.length s = .next t → P done t → t.inputs = i :: todo →
      ∃ u, runInput i { t with inputs := todo } = .next u ∧ u.inputs = todo ∧ P (done ++ [i]) u) :
    ∃ t, Host.Core.run Sys2Proof.core l.length s = .next t ∧ t.inputs = rest ∧ P l t := by
  suffices H : ∀ (todo done : List Input) (t : State), t.inputs = todo ++ rest → done ++ todo = l →
      Host.Core.run Sys2Proof.core done.length s = .next t → P done t →
      ∃ u, Host.Core.run Sys2Proof.core todo.length t = .next u ∧ u.inputs = rest ∧ P l u from
    H l [] s hl rfl rfl start
  intro todo
  induction todo with
  | nil =>
    intro done t ht hd _ hP
    exact ⟨t, rfl, ht, by simpa [← hd] using hP⟩
  | cons i todo ih =>
    intro done t ht hd hr hP
    obtain ⟨u, hu, hi, hPu⟩ := keep i done t (todo ++ rest) (by simp [← hd]) hr hP ht
    have hu : step t = .next u := step_cons ht ▸ hu
    obtain ⟨v, hv, hrest, hPv⟩ := ih (done ++ [i]) u hi (by simpa using hd) (by simpa using run_snoc hr hu) hPu
    exact ⟨v, by rw [List.length_cons, run_succ hu, hv], hrest, hPv⟩

end Sys2Proof.Machine
end

