-- ==== Sys2Proof/Tests/Slice0.lean ====
section
/-! SUPPORT. Tests against the worked vectors of spec/95_test_vectors.md (their ids are in the comments), smoke tests of
WellFormed, and a witness for the hypotheses of every statement that has some. -/

open Sys2Proof Sys2Proof.Machine Sys2Proof.Stated

namespace Sys2Proof.Tests

/-- The vectors' settings: N_SAMPLES = 4, both backends ready, the reset state. -/
def base : State := State.resetWith { nSamples := 4, framePeriod := 0 }

/-- The same without an audio backend. -/
def deaf : State := State.resetWith { nSamples := 4, audioReady := false, framePeriod := 0 }

/-- A good state in the middle of a note, its next step a SAMPLE. -/
def playing : State :=
  { base with voice := ⟨true, 440, 2 / 5, 1, 4410, 441⟩, inputs := [.sample], cursor := some 0x61 }

/-- The state after a step; a stop gives the reset state, whose parameters no test has. -/
def endOf : Host.Outcome State Fault Refusal → State
  | .next t => t
  | .fault _ | .refused _ => State.reset

/-- One bus transaction. -/
def bus (t : Transaction) (s : State) : State := endOf (step { s with inputs := [.bus t] })

/-- One SAMPLE step. -/
def sample (s : State) : State := endOf (step { s with inputs := [.sample] })

/-- One FRAME step. -/
def frame (s : State) : State := endOf (step { s with inputs := [.frame] })

/-! ## WellFormed: each check refuses an ill-formed term -/

theorem test_wf_refuses_read_of_getkey : (Instr.unknownRd 0x9000).wellFormed = false := by decide
theorem test_wf_refuses_read_of_rdfreq : (Instr.unknownRd 0x9004).wellFormed = false := by decide
theorem test_wf_refuses_read_of_smpcount : (Instr.unknownRd 0x9007).wellFormed = false := by decide
theorem test_wf_refuses_every_write_port :
    [0x9001, 0x9002, 0x9003, 0x9004, 0x9005, 0x9006, 0x9008, 0x9009, 0x900A].all
      (fun a => !(Instr.unknownWr a 0).wellFormed) = true := by decide
theorem test_wf_accepts_wrong_direction :
    ((Instr.unknownRd 0x9001).wellFormed && (Instr.unknownWr 0x9000 0).wellFormed
      && (Instr.unknownWr 0x9007 0).wellFormed) = true := by decide

/-! ## Decode: one written-out transaction for every constructor (selectors of R71, formats of R73 to R79) -/

theorem test_decode_getkey : decode (.rd 0x9000) = .getkey := by decide
theorem test_decode_rdfreq : decode (.rd 0x9004) = .rdfreq := by decide
theorem test_decode_smpcount : decode (.rd 0x9007) = .smpcount := by decide
/-- tttt dddd ffff ffff = 0011 1010 0001 0110. -/
theorem test_decode_playfreq : decode (.wr 0x9001 0b0011101000010110) = .playfreq 0x16 0xA 0x3 := by decide
theorem test_decode_playsmp : decode (.wr 0x9002 0xFFFF) = .playsmp 0xFFFF := by decide
/-- xxxx xxxx kkkk kkkk = 0100 0010 0110 0001. -/
theorem test_decode_showkey : decode (.wr 0x9003 0b0100001001100001) = .showkey 0x61 0x42 := by decide
theorem test_decode_cfgfreq : decode (.wr 0x9004 0x01B8) = .cfgfreq 0x01B8 := by decide
theorem test_decode_cfgsmp : decode (.wr 0x9005 0x1234) = .cfgsmp 0x1234 := by decide
theorem test_decode_cfgcol : decode (.wr 0x9006 0xABE0) = .cfgcol 0xABE0 := by decide
theorem test_decode_listsmp : decode (.wr 0x9008 0x5555) = .listsmp 0x5555 := by decide
/-- iiii iiii ffff ffff = 0000 0010 0001 0110. -/
theorem test_decode_playcomb : decode (.wr 0x9009 0b0000001000010110) = .playcomb 0x16 0x02 := by decide
/-- tttt mmmm kkkk kkkk = 0001 0010 0110 0001. -/
theorem test_decode_setmode : decode (.wr 0x900A 0b0001001001100001) = .setmode 0x61 0x2 0x1 := by decide
theorem test_decode_unknown_read : decode (.rd 0x9001) = .unknownRd 0x9001 := by decide
theorem test_decode_unknown_write : decode (.wr 0x9007 0x0001) = .unknownWr 0x9007 0x0001 := by decide
/-- Bit 16 is the direction, bits 32..17 the data word (log 9); the table's rows are 17 bits. -/
theorem test_table_word_playfreq : decodeTableWord 17 0x19001 = some (.playfreq 0 0 0) := by decide
theorem test_table_word_unknown_write : decodeTableWord 17 0x10000 = some (.unknownWr 0 0) := by decide
theorem test_number_above_33_bits_is_refused : decodeBits (2 ^ 33) = .error .tooWide := rfl

/-! ## Field decoders -/

/-- V-D1, V-D2. -/
theorem test_codes :
    (freqOf 0x00, freqOf 0x16, freqOf 0x64, freqOf 0xFF) = (220, 440, 1220, 2770) ∧
    (samplesOf 0, samplesOf 1, samplesOf 9, samplesOf 15) = (4410, 8820, 44100, 70560) := by decide
/-- V-D3. -/
theorem test_waveOf :
    (waveOf 0, waveOf 3, waveOf 4, waveOf 5, waveOf 14, waveOf 15) = (0, 3, 0, 1, 2, 3) := by decide
/-- V-D4. -/
theorem test_lower :
    (lower 0x41, lower 0x5A, lower 0x40, lower 0x5B, lower 0x61, lower 0x7A, lower 0xC1, lower 0x00)
      = (0x61, 0x7A, 0x40, 0x5B, 0x61, 0x7A, 0xC1, 0x00) := by decide
/-- V-D5. -/
theorem test_modeOf :
    (modeOf 0, modeOf 1, modeOf 2, modeOf 3, modeOf 4, modeOf 7, modeOf 0xF)
      = (.frequency, .sample, .both, .reserved, .frequency, .reserved, .reserved) := by decide
/-- V-D6. -/
theorem test_rgb :
    [rgb 0xE0, rgb 0x1C, rgb 0x03, rgb 0xFF, rgb 0x92, rgb 0x6D, rgb 0xB8]
      = [(252, 0, 0), (0, 252, 0), (0, 0, 255), (252, 252, 255), (144, 144, 170), (108, 108, 85), (180, 216, 0)] := by
  decide
/-- V-D7. -/
theorem test_quantise :
    (quantise 255 255 255, quantise 0 0 0, quantise 35 36 84, quantise 100 200 50) = (0xFF, 0x00, 0x04, 0x54) := by
  decide
/-- R31, R184: an unset color is shown as the triple (255,255,255), which no byte decodes to. -/
theorem test_shown_color :
    ({} : Binding).shownColor = (255, 255, 255) ∧ ({ color := some 0xFF } : Binding).shownColor = (252, 252, 255) := by
  decide
/-- V-O2, V-O3, V-O4, V-O5. -/
theorem test_shape :
    shape 220 1 70560 = (220, 56448) ∧ shape 2770 2 4410 = (3047, 4410) ∧ shape 220 3 4410 = (198, 4410) ∧
    shape 65535 2 4410 = (144177 / 2, 4410) := by decide +kernel
/-- V-O9, V-O10. -/
theorem test_env :
    env 0 4410 = 0 ∧ env 1 4410 = 1 / 882 ∧ env 881 4410 = 881 / 882 ∧ env 882 4410 = 1 ∧ env 3528 4410 = 1 ∧
    env 3529 4410 = 881 / 882 ∧ env 4409 4410 = 1 / 882 ∧ env 500 1000 = 250 / 441 := by decide +kernel
/-- V-O7: a trigger of no samples leaves the voice inactive. -/
theorem test_trigger_of_zero : (base.trigger 440 0 1).voice = ⟨false, 440, 0, 1, 0, 0⟩ := by decide +kernel

/-! ## One step each -/

/-- V-T3: a raw keypress resets a longer highlight and answers the raw code. -/
theorem test_getkey_resets :
    let t := bus (.rd 0x9000) { base.setTimer 0x61 (some 48) with keyAnswers := [0x41] }
    t.busResult = some 0x0041 ∧ t.timer 0x61 = some 30 ∧ t.out = [.highlight 0x61 true] ∧ t.keyAnswers = [] := by
  decide +kernel
/-- V-P1: no key. -/
theorem test_getkey_none :
    let t := bus (.rd 0x9000) { base with keyAnswers := [0x00, 0x62] }
    t.busResult = some 0 ∧ t.timer 0x00 = none ∧ t.out = [] ∧ t.keyAnswers = [0x62] := by decide +kernel
/-- V-P4. -/
theorem test_playfreq_raised : (bus (.wr 0x9001 0xFFFF) base).voice = ⟨true, 2493, 0, 1, 70560, 0⟩ := by decide +kernel
/-- V-P5. -/
theorem test_playfreq_shortened : (bus (.wr 0x9001 0x1F00) base).voice = ⟨true, 220, 0, 1, 56448, 0⟩ := by decide +kernel
/-- V-P7. -/
theorem test_playsmp_in_range :
    (bus (.wr 0x9002 0x0003) base).out = [.playSample 3] ∧ (bus (.wr 0x9002 0x0003) base).voice = Voice.reset := by
  decide +kernel
/-- V-P8, V-E7: the fallback, and both classes together without a backend. -/
theorem test_playsmp_out_of_range :
    (bus (.wr 0x9002 0x0004) base).voice = ⟨true, 220, 0, 1, 4410, 0⟩ ∧
    (bus (.wr 0x9002 0x0009) deaf).voice = Voice.reset ∧
    (bus (.wr 0x9002 0x0009) deaf).degrades = [.sampleRange, .backendUninit] := by decide +kernel
/-- V-P10. -/
theorem test_showkey_shaped :
    let t := bus (.wr 0x9003 0x0061) (base.setBinding 0x61 { freq := some 441, wave := some 3 })
    t.voice = ⟨true, 3969 / 10, 0, 1, 4410, 0⟩ ∧ t.timer 0x61 = some 50 ∧ t.out = [.highlight 0x61 true] := by
  decide +kernel
/-- V-P13: the fallback is superseded within the step; the upper byte is ignored and the key lower-cased (R213). -/
theorem test_showkey_both :
    (bus (.wr 0x9003 0x4141) (base.setBinding 0x61
      { freq := some 300, sample := some 9, mode := some .both, wave := some 1 })).voice
      = ⟨true, 300, 0, 1, 3528, 0⟩ := by decide +kernel
/-- V-D13: a value and not a new selection. -/
theorem test_cfgfreq_value :
    let t := bus (.wr 0x9004 0x0042) (base.setCursor (some 0x61))
    (t.binding 0x61).freq = some 0x42 ∧ t.cursor = none ∧ t.binding 0x62 = {} := by decide +kernel
/-- V-D9, V-D11. -/
theorem test_cfgfreq_select :
    (bus (.wr 0x9004 0x0041) base).cursor = some 0x61 ∧ (bus (.wr 0x9004 0x0100) base).cursor = none ∧
    (bus (.wr 0x9004 0x0100) base).degrades = [.cursorMisuse] := by decide +kernel
/-- V-P16. -/
theorem test_rdfreq_bound :
    let t := bus (.rd 0x9004) ((base.setCursor (some 0x61)).setBinding 0x61 { freq := some 440 })
    t.busResult = some 0x01B8 ∧ t.cursor = some 0x61 := by decide +kernel
/-- V-P17, V-P18. -/
theorem test_rdfreq_unbound :
    (bus (.rd 0x9004) base).busResult = some 0 ∧
    (bus (.rd 0x9004) (base.setCursor (some 0x62))).busResult = some 0 := by decide +kernel
/-- V-P20: no range check. -/
theorem test_cfgsmp_value :
    ((bus (.wr 0x9005 0x1234) (base.setCursor (some 0x61))).binding 0x61).sample = some 0x1234 := by decide +kernel
/-- V-D12. -/
theorem test_cfgsmp_select_zero : (bus (.wr 0x9005 0x0000) base).cursor = some 0x00 := by decide +kernel
/-- V-P21, V-D14. -/
theorem test_cfgcol_value :
    let t := bus (.wr 0x9006 0xABE0) (base.setCursor (some 0x61))
    (t.binding 0x61).color = some 0xE0 ∧ t.out = [.color 0x61 252 0 0] ∧ (t.binding 0x61).freq = none := by
  decide +kernel
/-- V-E6. -/
theorem test_cfgcol_misuse :
    (bus (.wr 0x9006 0x0100) base).cursor = none ∧ (bus (.wr 0x9006 0x0100) base).binding 0x00 = {} := by decide +kernel
/-- V-P22. -/
theorem test_smpcount : (bus (.rd 0x9007) base).busResult = some 0x0004 := by decide +kernel
/-- V-P24. -/
theorem test_listsmp : (bus (.wr 0x9008 0x5555) base).out = [.listSamples] := by decide +kernel
/-- V-P25. -/
theorem test_playcomb :
    let t := bus (.wr 0x9009 0x0216) base
    t.out = [.playSample 2] ∧ t.voice = ⟨true, 440, 0, 1, 4410, 0⟩ := by decide +kernel
/-- P5 step 1. -/
theorem test_playcomb_superseded :
    (bus (.wr 0x9009 0x0916) base).voice = ⟨true, 440, 0, 1, 4410, 0⟩ ∧
    (bus (.wr 0x9009 0x0916) base).degrades = [.sampleRange] := by decide +kernel
/-- V-P29. -/
theorem test_setmode_reduces :
    (bus (.wr 0x900A 0x4541) base).binding 0x61 = { mode := some .sample, wave := some 0 } := by decide +kernel
/-- V-P30. -/
theorem test_setmode_keeps_cursor :
    let t := bus (.wr 0x900A 0x1161) (base.setCursor (some 0x62))
    t.binding 0x61 = { mode := some .sample, wave := some 1 } ∧ t.cursor = some 0x62 := by decide +kernel
/-- V-P31. -/
theorem test_unknown_read : (bus (.rd 0x9001) base).busResult = some 0 ∧ (bus (.rd 0xFFFF) base).busResult = some 0 := by
  decide +kernel
/-- V-P32. -/
theorem test_unknown_write :
    let t := bus (.wr 0x9000 0x0061) playing
    t.cursor = some 0x61 ∧ t.voice = playing.voice ∧ t.out = [] ∧ t.degrades = [.invalidAddress] := by decide +kernel

/-! ## SAMPLE and FRAME -/

/-- The 11025 Hz voice of section 2.2, about to render sample n. -/
def quarter (n : Nat) (theta : Rat) : State := { base with voice := ⟨true, 11025, theta, 1, 4410, n⟩ }

/-- n = 1 (also R144's example). -/
theorem test_sample_first_quarter :
    (sample (quarter 1 (1 / 4))).out = [.audioOut (.exact (1 / 2940))] ∧
    (sample (quarter 1 (1 / 4))).voice = ⟨true, 11025, 1 / 2, 1, 4410, 2⟩ := by decide +kernel
/-- n = 883. -/
theorem test_sample_third_quarter : (sample (quarter 883 (3 / 4))).out = [.audioOut (.exact (-3 / 10))] := by
  decide +kernel
/-- n = 4409: the last sample clears the flag. -/
theorem test_sample_last :
    (sample (quarter 4409 (1 / 4))).out = [.audioOut (.exact (1 / 2940))] ∧
    (sample (quarter 4409 (1 / 4))).voice = ⟨false, 11025, 1 / 2, 1, 4410, 4410⟩ := by decide +kernel
/-- V-O8. -/
theorem test_sample_inactive :
    (sample base).out = [.audioOut (.exact 0)] ∧ (sample base).voice = Voice.reset := by decide +kernel
/-- n = 441 of the 440 Hz voice: SIN stays open, with its exact gain 1/2 · 3/10 and phase 2/5. -/
theorem test_sample_symbolic :
    (sample { base with voice := ⟨true, 440, 2 / 5, 1, 4410, 441⟩ }).out = [.audioOut (.scaled (3 / 20) (2 / 5))] := by
  decide +kernel
/-- Left and right (R148). -/
theorem test_channels : (AudioValue.exact (3 / 10)).channels = (.exact (3 / 10), .exact (3 / 10)) := by decide +kernel
/-- V-T7. -/
theorem test_frame_nothing : (frame base).timer 0x61 = none ∧ (frame base).out = [] := by decide +kernel
/-- V-T5. -/
theorem test_frame_ticks :
    let t := frame ((base.setTimer 0x61 (some 1)).setTimer 0x62 (some 5))
    t.timer 0x61 = none ∧ t.timer 0x62 = some 4 ∧ t.timer 0x63 = none ∧ t.out = [.highlight 0x61 false] := by
  decide +kernel

/-! ## Witnesses: concrete states and operands that meet the hypotheses of each statement -/

theorem witness_DecodeEncodeRoundTrip :
    (Instr.setmode 0x61 0xF 0xF).wellFormed = true ∧ (Instr.unknownWr 0xFFFF 0x1234).wellFormed = true := by decide

theorem playing_good : playing.Good where
  voice := by constructor <;> norm_num [playing]
  timers := fun k n h => by
    have : playing.timer k = none := resetWith_timer base.params k
    simp [this] at h
  timer_lower := fun k _ => resetWith_timer base.params k
  binding_lower := fun k _ => resetWith_binding base.params k
  cursor_lower := fun k h => by cases h; decide

theorem witness_StepKeepsGood : playing.Good ∧ ∃ t, step playing = .next t := ⟨playing_good, _, rfl⟩
theorem witness_NoStepWritesTheParameters : ∃ t, step playing = .next t := ⟨_, rfl⟩
theorem witness_OutputStreamOnlyGrows : ∃ t, step playing = .next t := ⟨_, rfl⟩

theorem witness_StepRunsTheDecodedTransaction :
    ({ base with inputs := [.bus (.wr 0x9001 0xFFFF), .frame] } : State).inputs = .bus (.wr 0x9001 0xFFFF) :: [.frame] ∧
    (Instr.playfreq 0xFF 0xF 0xF).wellFormed = true ∧
    ({ base with inputs := [.bus (encode (.playfreq 0xFF 0xF 0xF))] } : State).inputs
      = .bus (encode (.playfreq 0xFF 0xF 0xF)) :: [] ∧
    playing.inputs = .sample :: [] ∧ ({ base with inputs := [.frame, .sample] } : State).inputs = .frame :: [.sample] :=
  ⟨rfl, rfl, rfl, rfl, rfl⟩

theorem witness_FetchWordRunsItsOperation :
    decodeTableWord 17 0x19001 = some (.playfreq 0 0 0) ∧ decodeTableWord 33 0x1FFFF9001 = some (.playfreq 0xFF 0xF 0xF) := by
  decide

theorem witness_EmptyInputRunsTheFreeChoice : base.inputs = [] := rfl

theorem witness_LowerMapsAsciiLettersOnly :
    (0x41 ≤ (0x41 : Key).toNat ∧ (0x41 : Key).toNat ≤ 0x5A) ∧ (0x41 ≤ (0x5A : Key).toNat ∧ (0x5A : Key).toNat ≤ 0x5A) ∧
    ¬(0x41 ≤ (0x40 : Key).toNat ∧ (0x40 : Key).toNat ≤ 0x5A) ∧
    ¬(0x41 ≤ (0x5B : Key).toNat ∧ (0x5B : Key).toNat ≤ 0x5A) := by decide

theorem witness_RgbDecodeAndQuantiserLaw : ∃ r g b : Nat, r < 256 ∧ g < 256 ∧ b < 256 ∧ quantise r g b = 0xFF :=
  ⟨255, 255, 255, by decide⟩

theorem witness_RdfreqAnswersThePendingFrequency :
    (∃ s : State, s.cursor = some 0x61 ∧ (s.binding 0x61).freq = some 0xFFFF) ∧
    (∀ k f, base.cursor = some k → (base.binding k).freq ≠ some f) ∧
    (∀ k f, (base.setCursor (some 0x61)).cursor = some k → ((base.setCursor (some 0x61)).binding k).freq ≠ some f) := by
  refine ⟨⟨(base.setCursor (some 0x61)).setBinding 0x61 { freq := some 0xFFFF }, rfl, by decide +kernel⟩,
    fun k f h => (by cases h), fun k f _ => ?_⟩
  have h : (base.setCursor (some 0x61)).binding k = {} := resetWith_binding base.params k
  rw [h]
  exact nofun

theorem witness_EachOperationTracesItsClasses :
    ∃ t, exec (.playsmp 9) deaf = .next t ∧ t.degrades = [.sampleRange, .backendUninit] := ⟨_, rfl, by decide +kernel⟩

theorem witness_ReadsAnswerAndWritesDoNot :
    (∃ t, exec (decode (.rd 0x9000)) base = .next t) ∧ ∃ t, exec (decode (.wr 0x9000 0)) base = .next t :=
  ⟨⟨_, rfl⟩, _, rfl⟩

theorem witness_OnlyTheListedStepsWrite :
    (∃ t, exec .rdfreq base = .next t) ∧
    Instr.rdfreq.mnemonic ∉ ["PLAYFREQ", "PLAYSMP", "SHOWKEY", "PLAYCOMB"] ∧
    Instr.rdfreq.mnemonic ∉ ["CFGFREQ", "CFGSMP", "CFGCOL", "SETMODE"] ∧
    Instr.rdfreq.mnemonic ∉ ["GETKEY", "SHOWKEY"] ∧ Instr.rdfreq.mnemonic ∉ ["CFGFREQ", "CFGSMP", "CFGCOL"] :=
  ⟨⟨_, rfl⟩, by decide, by decide, by decide, by decide⟩

theorem witness_NoOperationReadsTheVoice :
    ∃ t, exec (.playsmp 4) playing = .next t ∧ t.voice ≠ playing.voice := ⟨_, rfl, by decide +kernel⟩

theorem witness_BigWordClearsTheCursor :
    0xFF < (0x0100 : Word).toNat ∧
    (playing.cursor = some 0x61 ∧ ∃ t, exec (.cfgfreq 0x0100) playing = .next t ∧ t.cursor = none) ∧
    (playing.cursor = some 0x61 ∧ ∃ t, exec (.cfgsmp 0x0100) playing = .next t ∧ t.cursor = none) ∧
    (base.cursor = none ∧ ∃ t, exec (.cfgcol 0x0100) base = .next t ∧ t.cursor = none) :=
  ⟨by decide, ⟨rfl, _, rfl, rfl⟩, ⟨rfl, _, rfl, rfl⟩, rfl, _, rfl, rfl⟩

theorem witness_UnknownAccessIsANoOp :
    ((0x9001 : Word) ≠ 0x9000 ∧ (0x9001 : Word) ≠ 0x9004 ∧ (0x9001 : Word) ≠ 0x9007) ∧
    [0x9000, 0x9007, 0x900B].all (fun a : Word =>
      !decide (0x9001 ≤ a.toNat ∧ a.toNat ≤ 0x900A ∧ a.toNat ≠ 0x9007)) = true := by decide

theorem witness_OtherReadsHaveNoSideEffect : (0x9004 : Word) ≠ 0x9000 ∧ (0x8FFF : Word) ≠ 0x9000 := by decide

theorem witness_IgnoredBitsHaveNoEffect :
    (playing.cursor = some 0x61 ∧ (0xABE0 : Word).toNat % 256 = (0x00E0 : Word).toNat % 256) ∧
    ((0xF : BitVec 4).toNat % 4 = (0x3 : BitVec 4).toNat % 4 ∧ ∃ t, exec (.playfreq 0 0 0xF) base = .next t) ∧
    ((0x7 : BitVec 4).toNat % 4 = (0x3 : BitVec 4).toNat % 4 ∧ (0x4 : BitVec 4).toNat % 4 = (0x0 : BitVec 4).toNat % 4 ∧
      ∃ t, exec (.setmode 0x61 0x7 0x4) base = .next t) :=
  ⟨by decide, ⟨by decide, _, rfl⟩, by decide, by decide, _, rfl⟩

theorem witness_RdfreqAfterATwoPhaseWrite :
    [Instr.cfgfreq 0x00FF, .cfgsmp 0x00FF, .cfgcol 0x00FF].all (fun i =>
      match exec i playing, exec i base with
      | .next _, .next _ => true
      | _, _ => false) = true ∧
    playing.cursor ≠ none ∧ base.cursor = none ∧ (0x00FF : Word).toNat ≤ 0xFF := ⟨rfl, by decide, rfl, by decide⟩

theorem witness_RepeatedSetmodeAndUnknownChangeNothing :
    ["SETMODE", "UNKNOWN_RD", "UNKNOWN_WR"]
      = [(Instr.setmode 0x41 7 15).mnemonic, (Instr.unknownRd 0x9001).mnemonic, (Instr.unknownWr 0x9000 0).mnemonic] ∧
    (∃ t, exec (.setmode 0x41 7 15) playing = .next t ∧ ∃ u, exec (.setmode 0x41 7 15) t = .next u) ∧
    (∃ t, exec (.unknownRd 0x9001) base = .next t ∧ ∃ u, exec (.unknownRd 0x9001) t = .next u) ∧
    ∃ t, exec (.unknownWr 0x9000 0) base = .next t ∧ ∃ u, exec (.unknownWr 0x9000 0) t = .next u :=
  ⟨by decide, ⟨_, rfl, _, rfl⟩, ⟨_, rfl, _, rfl⟩, _, rfl, _, rfl⟩

theorem witness_SetFreqBindsTheKey :
    base.cursor = none ∧ ∃ s : State, s.cursor = none ∧
      s.inputs = (PseudoOp.setFreq 0x41 0xFFFF).expand.map Input.bus ++ [.sample] :=
  ⟨rfl, { base with inputs := (PseudoOp.setFreq 0x41 0xFFFF).expand.map Input.bus ++ [.sample] }, rfl, rfl⟩

theorem witness_SampleStepRendersTheVoice :
    playing.inputs = .sample :: [] ∧ playing.params.audioReady = true ∧ playing.voice.active = true ∧
    ({ base with inputs := [.sample] } : State).inputs = .sample :: [] ∧
    base.params.audioReady = true ∧ base.voice.active = false := ⟨rfl, rfl, rfl, rfl, rfl, rfl⟩

theorem witness_NoSampleWithoutAudio :
    ({ deaf with inputs := [.sample] } : State).inputs = .sample :: [] ∧ deaf.params.audioReady = false := ⟨rfl, rfl⟩

/-- The interleaving of the next two witnesses: a SHOWKEY of another, silent key and a PLAYSMP in range, three SAMPLE and
two FRAME steps. -/
def mixed : List Input :=
  [.bus (.wr 0x9003 0x0062), .sample, .frame, .bus (.wr 0x9002 0x0003), .sample, .frame, .sample]

/-- A voice of two samples and a timer of two frames, with those inputs pending: both sides of `n < T` and of the N-th
FRAME step occur. -/
def mixedState : State :=
  { base.setTimer 0x61 (some 2) with voice := ⟨true, 440, 0, 1, 2, 0⟩, inputs := mixed ++ [.frame] }

theorem witness_TriggeredVoiceRendersItsClosedForm :
    mixedState.params.audioReady = true ∧ 0 < 2 ∧ mixedState.voice = ⟨true, 440, 0, 1, 2, 0⟩ ∧
      mixedState.inputs = mixed ++ [.frame] ∧ BusSteps mixed.length mixedState (fun i u => ¬ Triggers i u) ∧
      mixed.count .sample = 3 := by
  refine ⟨rfl, by decide, rfl, rfl, fun m u t rest hm hr hu => ?_, by decide⟩
  have hm : m < 7 := hm
  interval_cases m <;> cases hr <;> cases hu
  · rintro (h | ⟨id, h, -⟩)
    · exact absurd h (by decide +kernel)
    · have hb : mixedState.binding 0x62 = {} := resetWith_binding base.params 0x62
      have hn : soundSample (mixedState.binding 0x62) = some id := h
      rw [hb] at hn
      cases hn
  · change ¬ (_ ≤ _)
    decide

theorem witness_EnvelopeShape :
    (1764 ≤ 1764 ∧ 881 < 1764 ∧ envelope 881 1764 = 881 / 882 ∧ envelope 882 1764 = 1 ∧ envelope 883 1764 = 881 / 882) ∧
    (0 < 1 ∧ env 0 1 = 0) ∧ (1763 < 1764 ∧ 1762 < 1763) := by decide +kernel

theorem witness_EmittedValuesAreBounded :
    ∃ (t : State) (es : List Event) (v : AudioValue) (_ : Config.Numerics), playing.Good ∧ step playing = .next t ∧
      t.out = playing.out ++ es ∧ .audioOut v ∈ es :=
  ⟨_, [.audioOut playing.voice.sampleValue], _, sine, playing_good, rfl, rfl, List.mem_singleton.2 rfl⟩

theorem witness_SampleAfterTriggerRendersTheNewVoice :
    let s : State := { playing with inputs := [.bus (encode (.playfreq 0xFF 0xF 0xF)), .sample, .frame] }
    s.params.audioReady = true ∧ s.inputs = .bus (encode (.playfreq 0xFF 0xF 0xF)) :: .sample :: [.frame] := ⟨rfl, rfl⟩

theorem witness_HalfRateVoiceIsSilent :
    let s (theta : Rat) : State := { base with voice := ⟨true, 22050, theta, 1, 4410, 1000⟩, inputs := [.sample] }
    (s 0).inputs = .sample :: [] ∧ (s 0).params.audioReady = true ∧ (s 0).voice.freq = 22050 ∧ (s 0).voice.theta = 0 ∧
      (s (1 / 2)).voice.theta = 1 / 2 ∧ (∃ t, step (s 0) = .next t) ∧ ∃ t, step (s (1 / 2)) = .next t :=
  ⟨rfl, rfl, rfl, rfl, rfl, ⟨_, rfl⟩, _, rfl⟩

theorem witness_FrameStepTicksEveryTimer :
    ∃ s : State, s.inputs = .frame :: [] ∧ (∀ k, s.timer k ≠ some 0) ∧ s.timer 0x61 = some 1 ∧ s.timer 0x62 = some 50 :=
  ⟨{ (base.setTimer 0x61 (some 1)).setTimer 0x62 (some 50) with inputs := [.frame] }, rfl,
    fun k => by
      show ((base.setTimer 0x61 (some 1)).setTimer 0x62 (some 50)).timer k ≠ some 0
      rw [timer_setTimer, timer_setTimer, show base.timer k = none from resetWith_timer _ k]
      split_ifs <;> exact nofun,
    by decide +kernel, by decide +kernel⟩

theorem witness_TimerRunsItsFrames :
    0 < 2 ∧ mixedState.timer 0x61 = some 2 ∧ mixedState.inputs = mixed ++ [.frame] ∧
      BusSteps mixed.length mixedState (fun i u => ¬ Highlights 0x61 i u) ∧ ¬ mixed.count .frame < 2 ∧
      BusSteps 3 mixedState (fun i u => ¬ Highlights 0x61 i u) ∧ (mixed.take 3).count .frame < 2 := by
  have h : BusSteps 7 mixedState (fun i u => ¬ Highlights 0x61 i u) := by
    intro m u t rest hm hr hu
    interval_cases m <;> cases hr <;> cases hu
    · exact (by decide : ¬ lower 0x62 = 0x61)
    · exact not_false
  exact ⟨by decide, by decide +kernel, rfl, h, by decide, fun m u t rest hm => h m u t rest (by omega), by decide⟩

theorem witness_VisualReadinessOnlyDropsEvents :
    playing.params.visualReady = true ∧ ∃ t, Sys2Proof.core.run 1 playing = .next t := ⟨rfl, _, rfl⟩

theorem witness_AudioReadinessOnlyDropsAudio :
    playing.params.audioReady = true ∧ ∃ t, Sys2Proof.core.run 1 playing = .next t := ⟨rfl, _, rfl⟩

end Sys2Proof.Tests
end

section
/-! The decoder undoes the encoder, and a step runs the head of the pending inputs (spec/30_encoding.md R71, R73 to
R79; spec/00_scope.md R18). -/

namespace Sys2Proof

/-- An address outside the read ports is no row of R71 but UNKNOWN_RD. -/
theorem decodeRead_of_not_mem {a : Word} (h : a ∉ readPorts) : decodeRead a = .unknownRd a := by
  simp only [readPorts, List.mem_cons, List.not_mem_nil, or_false, not_or] at h
  simp only [decodeRead, h, if_false]

/-- An address outside the write ports is no row of R71 but UNKNOWN_WR. -/
theorem decodeWrite_of_not_mem {a : Word} (h : a ∉ writePorts) (w : Word) : decodeWrite a w = .unknownWr a w := by
  simp only [writePorts, List.mem_cons, List.not_mem_nil, or_false, not_or] at h
  simp only [decodeWrite, h, if_false]

/-- No operand bit is lost (R73 to R79): a packed word gives back its fields, and an UNKNOWN operation's address
is no port. -/
theorem decode_encode {i : Instr} (hwf : i.wellFormed = true) : decode (encode i) = i := by
  cases i with
  | getkey | rdfreq | smpcount => rfl
  | playsmp w | cfgfreq w | cfgsmp w | cfgcol w | listsmp w => rfl
  | playfreq f d t =>
    exact congr (congrArg₂ Instr.playfreq (extract_low _ f) (extract_middle t d f)) (extract_top t d f)
  | setmode k m t =>
    exact congr (congrArg₂ Instr.setmode (extract_low _ k) (extract_middle t m k)) (extract_top t m k)
  | showkey k x => exact congrArg₂ Instr.showkey (extract_low x k) (extract_high x k)
  | playcomb f id => exact congrArg₂ Instr.playcomb (extract_low id f) (extract_high id f)
  | unknownRd a => exact decodeRead_of_not_mem (by simpa [Instr.wellFormed] using hwf)
  | unknownWr a w => exact decodeWrite_of_not_mem (by simpa [Instr.wellFormed] using hwf) w

end Sys2Proof

namespace Sys2Proof.Machine

/-- A step with a pending transaction performs the operation it decodes to (R225). -/
theorem step_bus {s : State} {t : Transaction} {rest : List Input} (h : s.inputs = .bus t :: rest) :
    step s = exec (decode t) { s with inputs := rest } := by
  rw [step_cons h, runInput_bus]

/-- Settles O13: `step_cons` gives the input that runs, and `decode_encode` the operation of an encoding. -/
theorem stepRunsTheDecodedTransaction : Obligations.StepRunsTheDecodedTransaction := by
  intro s rest
  refine ⟨fun t h => step_bus h, fun i hwf h => ?_, fun h => ?_, fun h => ?_⟩
  · rw [step_bus h, decode_encode hwf]
  · rw [step_cons h, runInput_sample]
  · rw [step_cons h, runInput_frame]

end Sys2Proof.Machine
end

section
/-! The run's parameters are written by no operation and no clock step (spec/10_state.md R28), and the components of
the reset state (R32). -/

namespace Sys2Proof.Machine

variable (s : State)

@[simp] theorem params_degradeIf (b : Bool) (d : Degrade) : (s.degradeIf b d).params = s.params := by
  rw [degradeIf_eq]

@[simp] theorem params_trigger (f : Rat) (T : Nat) (vol : Rat) : (s.trigger f T vol).params = s.params := by
  rw [trigger_eq]

@[simp] theorem params_triggerShaped (f : Rat) (wt : WaveType) (T : Nat) :
    (s.triggerShaped f wt T).params = s.params := params_trigger ..

@[simp] theorem params_playSample (id : Word) : (s.playSample id).params = s.params := by rw [playSample_eq]

@[simp] theorem params_keySamplePart (b : Binding) : (s.keySamplePart b).params = s.params := by
  unfold State.keySamplePart
  split <;> simp

@[simp] theorem params_keyFrequencyPart (b : Binding) : (s.keyFrequencyPart b).params = s.params := by
  unfold State.keyFrequencyPart
  split <;> simp

@[simp] theorem params_keySound (k : Key) : (s.keySound k).params = s.params := by simp [State.keySound]

@[simp] theorem params_triggerHighlight (k : Key) (n : Nat) : (s.triggerHighlight k n).params = s.params := by
  rw [triggerHighlight_eq]

@[simp] theorem params_assignFrequency (k : Key) (hz : Word) : (s.assignFrequency k hz).params = s.params := rfl
@[simp] theorem params_assignSample (k : Key) (id : Word) : (s.assignSample k id).params = s.params := rfl
@[simp] theorem params_assignMode (k : Key) (m : Mode) (wt : WaveType) :
    (s.assignMode k m wt).params = s.params := rfl

@[simp] theorem params_assignColor (k : Key) (c : BitVec 8) : (s.assignColor k c).params = s.params := by
  rw [assignColor_eq]

@[simp] theorem params_drawKey : s.drawKey.2.params = s.params := by rw [drawKey_eq]
@[simp] theorem params_takeInput : s.takeInput.2.params = s.params := by rw [takeInput_eq]

/-- The two-phase protocol writes no parameter when the port's assignment writes none (R110). -/
theorem params_twoPhase {assign : State → Key → Word → State}
    (hassign : ∀ k v, (assign s k v).params = s.params) (w : Word) : (s.twoPhase assign w).params = s.params := by
  unfold State.twoPhase
  split
  · split_ifs <;> rfl
  · exact hassign ..

variable {s}

/-- Every bus operation leaves the parameters (R28). -/
theorem params_of_exec {i : Instr} {t : State} (h : exec i s = .next t) : t.params = s.params := by
  cases i with
  | getkey => cases h; split_ifs <;> simp
  | playfreq | playsmp | showkey | playcomb | setmode => cases h; simp
  | cfgfreq w => cases h; exact params_twoPhase s (params_assignFrequency s) w
  | cfgsmp w => cases h; exact params_twoPhase s (params_assignSample s) w
  | cfgcol w => cases h; exact params_twoPhase s (fun k v => params_assignColor s k (v.extractLsb' 0 8)) w
  | rdfreq | smpcount | listsmp | unknownRd | unknownWr => cases h; rfl

/-- Every step of every agent leaves the parameters (R18, R28). -/
theorem params_of_runInput {i : Input} {t : State} (h : runInput i s = .next t) : t.params = s.params := by
  cases i with
  | bus tr => exact params_of_exec h
  | sample => cases h; exact params_sampleStep s
  | frame => cases h; exact params_frameStep s

/-- Settles O11: taking the next input and running it both leave the parameters. -/
theorem noStepWritesTheParameters : Obligations.NoStepWritesTheParameters := by
  intro s t h
  calc t.params = s.takeInput.2.params := params_of_runInput h
    _ = s.params := params_takeInput s

/-- Settles O8: the register files hold one value at every key, and the other components are fields of the record. -/
theorem resetLeavesTheStatedValues : Obligations.ResetLeavesTheStatedValues := fun p k =>
  ⟨rfl, resetWith_binding p k, resetWith_timer p k, rfl, rfl⟩

end Sys2Proof.Machine
end

section
/-! The opcode table as a first-match decoder, and the bit fields of the packed words (spec/30_encoding.md R71, R73,
R75, R78, R79). -/

namespace Sys2Proof

@[simp] theorem toNat_sel_rd (a : Word) : (Transaction.rd a).sel.toNat = a.toNat := by
  rw [Transaction.sel, toNat_append_add]
  simp

@[simp] theorem toNat_sel_wr (a w : Word) : (Transaction.wr a w).sel.toNat = 0x10000 + a.toNat := by
  rw [Transaction.sel, toNat_append_add]
  simp

/-- The data word is no part of the selector (R71). -/
theorem sel_wr_eq (a w w' : Word) : (Transaction.wr a w).sel = (Transaction.wr a w').sel := rfl

/-- Matching a row on the selector's number is matching it on the selector. -/
theorem toNat_and_mask_beq (r : OpcodeRow) (sel : BitVec 17) :
    ((sel.toNat &&& r.mask.toNat) == r.pattern.toNat) = r.accepts sel := by
  rw [OpcodeRow.accepts, ← BitVec.toNat_and, Bool.eq_iff_iff, beq_iff_eq, beq_iff_eq, BitVec.toNat_inj]

/-- Rows 1 to 12 of the table: one row per port and direction (R71). -/
def portRows : List OpcodeRow := opcodeTable.take 12

/-- Row 13 of the table: every other read (R71). -/
def unknownRdRow : OpcodeRow := ⟨"UNKNOWN_RD", 0x00000, 0x10000⟩

/-- Row 14 of the table: every other write (R71). -/
def unknownWrRow : OpcodeRow := ⟨"UNKNOWN_WR", 0x10000, 0x10000⟩

theorem opcodeTable_eq : opcodeTable = portRows ++ [unknownRdRow, unknownWrRow] := rfl

/-- A port's row looks at every bit of the selector, and its pattern is the selector of a port. -/
theorem mask_and_pattern_of_mem_portRows : ∀ r ∈ portRows, r.mask = BitVec.allOnes 17 ∧
    (r.pattern ∈ readPorts.map (fun p => (Transaction.rd p).sel) ∨
      r.pattern ∈ writePorts.map (fun p => (Transaction.wr p 0).sel)) := by
  decide

/-- What a port's row accepts is the selector of a port. -/
theorem sel_of_portRow_accepts {r : OpcodeRow} {sel : BitVec 17} (hr : r ∈ portRows) (h : r.accepts sel = true) :
    (∃ p ∈ readPorts, (Transaction.rd p).sel = sel) ∨ ∃ p ∈ writePorts, (Transaction.wr p 0).sel = sel := by
  obtain ⟨hmask, hpattern⟩ := mask_and_pattern_of_mem_portRows r hr
  rw [OpcodeRow.accepts, hmask, BitVec.and_allOnes, beq_iff_eq] at h
  simpa only [h, List.mem_map] using hpattern

/-- No port's row accepts a read of an address outside the read ports. -/
theorem find_portRows_rd {a : Word} (ha : a ∉ readPorts) :
    portRows.find? (·.accepts (Transaction.rd a).sel) = none := by
  refine List.find?_eq_none.2 fun r hr h => ?_
  obtain ⟨p, hp, hsel⟩ | ⟨p, -, hsel⟩ := sel_of_portRow_accepts hr h
  · have heq : p = a := BitVec.eq_of_toNat_eq (by simpa using congrArg BitVec.toNat hsel)
    exact ha (heq ▸ hp)
  · have hnat : 0x10000 + p.toNat = a.toNat := by simpa using congrArg BitVec.toNat hsel
    omega

/-- No port's row accepts a write to an address outside the write ports. -/
theorem find_portRows_wr {a : Word} (ha : a ∉ writePorts) (w : Word) :
    portRows.find? (·.accepts (Transaction.wr a w).sel) = none := by
  refine List.find?_eq_none.2 fun r hr h => ?_
  obtain ⟨p, -, hsel⟩ | ⟨p, hp, hsel⟩ := sel_of_portRow_accepts hr h
  · have hnat : p.toNat = 0x10000 + a.toNat := by simpa using congrArg BitVec.toNat hsel
    omega
  · have heq : p = a := BitVec.eq_of_toNat_eq (by simpa using congrArg BitVec.toNat hsel)
    exact ha (heq ▸ hp)

/-- The row of an UNKNOWN_RD looks at the direction bit, which a write sets. -/
theorem unknownRdRow_rejects_wr (a w : Word) : unknownRdRow.accepts (Transaction.wr a w).sel = false := by
  have hwr : (Transaction.wr a w).sel &&& 0x10000 = 0x10000 := beq_iff_eq.1 (Laws.EncodingRow.accepts_wr a w)
  rw [OpcodeRow.accepts, unknownRdRow, hwr]
  decide

theorem mnemonic_find_opcodeTable_rd (a : Word) :
    (opcodeTable.find? (·.accepts (Transaction.rd a).sel)).map OpcodeRow.mnemonic
      = some (decodeRead a).mnemonic := by
  by_cases ha : a ∈ readPorts
  case pos =>
    unfold readPorts at ha
    fin_cases ha <;> rfl
  case neg =>
    have hrd : unknownRdRow.accepts (Transaction.rd a).sel = true := Laws.EncodingRow.accepts_rd a
    rw [opcodeTable_eq, List.find?_append, find_portRows_rd ha, Option.none_or, decodeRead_of_not_mem ha]
    exact congrArg (Option.map OpcodeRow.mnemonic) (List.find?_cons_of_pos hrd)

/-- Which operation a write is does not depend on the data word. -/
theorem mnemonic_decodeWrite (a w : Word) : (decodeWrite a w).mnemonic = (decodeWrite a 0).mnemonic := by
  unfold decodeWrite
  split_ifs <;> rfl

theorem mnemonic_find_opcodeTable_wr (a w : Word) :
    (opcodeTable.find? (·.accepts (Transaction.wr a w).sel)).map OpcodeRow.mnemonic
      = some (decodeWrite a w).mnemonic := by
  by_cases ha : a ∈ writePorts
  case pos =>
    rw [mnemonic_decodeWrite, sel_wr_eq a w 0]
    unfold writePorts at ha
    fin_cases ha <;> rfl
  case neg =>
    have hwr : unknownWrRow.accepts (Transaction.wr a w).sel = true := Laws.EncodingRow.accepts_wr a w
    rw [opcodeTable_eq, List.find?_append, find_portRows_wr ha, Option.none_or,
      List.find?_cons_of_neg (by simp [unknownRdRow_rejects_wr]), decodeWrite_of_not_mem ha]
    exact congrArg (Option.map OpcodeRow.mnemonic) (List.find?_cons_of_pos hwr)

/-- Settles O3: a port's row accepts its own selector only, and the two UNKNOWN rows take the rest by direction. -/
theorem decodeIsTheFirstMatchingRow : Obligations.DecodeIsTheFirstMatchingRow := by
  intro t
  simp only [toNat_and_mask_beq]
  cases t with
  | rd a => exact ⟨mnemonic_find_opcodeTable_rd a, toNat_sel_rd a⟩
  | wr a w => exact ⟨mnemonic_find_opcodeTable_wr a w, toNat_sel_wr a w⟩

theorem toNat_extractLsb'_eq_div_mod (w : Word) (start len : Nat) :
    (w.extractLsb' start len).toNat = w.toNat / 2 ^ start % 2 ^ len := by
  rw [BitVec.extractLsb'_toNat, Nat.shiftRight_eq_div_pow]

theorem toNat_lowByte (w : Word) : (w.extractLsb' 0 8).toNat = w.toNat % 256 := by
  rw [toNat_extractLsb'_eq_div_mod]
  omega

theorem toNat_highByte (w : Word) : (w.extractLsb' 8 8).toNat = w.toNat / 256 := by
  rw [toNat_extractLsb'_eq_div_mod]
  omega

theorem toNat_middleNibble (w : Word) : (w.extractLsb' 8 4).toNat = w.toNat / 256 % 16 :=
  toNat_extractLsb'_eq_div_mod w 8 4

theorem toNat_topNibble (w : Word) : (w.extractLsb' 12 4).toNat = w.toNat / 4096 := by
  rw [toNat_extractLsb'_eq_div_mod]
  omega

/-- Settles O4: the decoder cuts each packed word into two bytes, or into a byte and two nibbles. -/
theorem packedWordFieldsStandAtTheirBits : Obligations.PackedWordFieldsStandAtTheirBits := fun w =>
  ⟨⟨_, _, _, rfl, toNat_lowByte w, toNat_middleNibble w, toNat_topNibble w⟩,
    ⟨_, _, rfl, toNat_lowByte w, toNat_highByte w⟩,
    ⟨_, _, rfl, toNat_lowByte w, toNat_highByte w⟩,
    ⟨_, _, _, rfl, toNat_lowByte w, toNat_middleNibble w, toNat_topNibble w⟩⟩

end Sys2Proof
end

section
/-! The coded fields and the RGB-332 quantiser in plain arithmetic (spec/40_decoder.md R100 to R102 and R105 to R107). -/

namespace Sys2Proof.Machine

@[simp] theorem val_waveOf (t : BitVec 4) : (waveOf t).val = t.toNat % 4 := Fin.val_ofNat 4 t.toNat

theorem samplesOf_eq (dc : BitVec 4) : samplesOf dc = 4410 * (1 + dc.toNat) := Nat.mul_comm _ _

/-- Each residue of the mode field is one row of the table of R105. -/
theorem modeOf_eq (m : BitVec 4) :
    modeOf m = (if m.toNat % 4 = 0 then .frequency else if m.toNat % 4 = 1 then .sample
      else if m.toNat % 4 = 2 then .both else .reserved) := by
  rw [modeOf, ← Fin.val_ofNat 4 m.toNat]
  generalize Fin.ofNat 4 m.toNat = residue
  fin_cases residue <;> rfl

/-- Settles O16: each decoder is its own formula, and the four residues of a mode field are its four cases. -/
theorem codedFieldsDecode : Obligations.CodedFieldsDecode :=
  ⟨fun _ => rfl, samplesOf_eq, val_waveOf, modeOf_eq⟩

/-- The levels of RGB-332 are the quotients of the byte by the weights 32, 4 and 1 (R106). -/
theorem rgb_eq (c : BitVec 8) : rgb c = (36 * (c.toNat / 32), 36 * (c.toNat / 4 % 8), 85 * (c.toNat % 4)) := by
  have hred : c.toNat / 32 % 8 = c.toNat / 32 := by omega
  simp only [rgb, BitVec.extractLsb'_toNat, Nat.shiftRight_eq_div_pow, pow_zero, Nat.div_one, Nat.reducePow, hred]

/-- Three levels that fit their fields of RGB-332 do not overlap, so that or-ing them is adding them. -/
theorem shift_or_levels {red green blue : Nat} (hg : green ≤ 7) (hb : blue ≤ 3) :
    (red <<< 5) ||| (green <<< 2) ||| blue = 32 * red + 4 * green + blue := by
  have hlow : (green <<< 2) ||| blue = 4 * green + blue := by
    rw [← Nat.shiftLeft_add_eq_or_of_lt (by omega), Nat.shiftLeft_eq, Nat.mul_comm]
  rw [Nat.lor_assoc, hlow, ← Nat.shiftLeft_add_eq_or_of_lt (by omega), Nat.shiftLeft_eq]
  omega

/-- The quantiser packs the three capped levels (R107), whatever the size of the components. -/
theorem toNat_quantise (r g b : Nat) :
    (quantise r g b).toNat = 32 * min 7 (r / 36) + 4 * min 7 (g / 36) + min 3 (b / 85) := by
  rw [quantise, shift_or_levels (min_le_left _ _) (min_le_left _ _), BitVec.toNat_ofNat]
  omega

/-- A byte's levels are within their caps, so the quantiser gives them back (R107). -/
theorem quantise_rgb (c : BitVec 8) : quantise (rgb c).1 (rgb c).2.1 (rgb c).2.2 = c := by
  apply BitVec.eq_of_toNat_eq
  simp only [toNat_quantise, rgb_eq]
  omega

/-- Decoding the quantised triple leaves the floor of each component's bucket (R107). -/
theorem rgb_quantise (r g b : Nat) :
    rgb (quantise r g b) = (36 * min 7 (r / 36), 36 * min 7 (g / 36), 85 * min 3 (b / 85)) := by
  rw [rgb_eq, toNat_quantise]
  simp only [Prod.mk.injEq]
  omega

/-- Settles O18, from the arithmetic of `rgb` and `quantise`; the quantiser's caps make the bound of 256 unnecessary. -/
theorem rgbDecodeAndQuantiserLaw : Obligations.RgbDecodeAndQuantiserLaw :=
  ⟨rgb_eq, quantise_rgb, fun r g b _ _ _ => ⟨toNat_quantise r g b, rgb_quantise r g b⟩⟩

end Sys2Proof.Machine
end

section
/-! The shaper and the envelope piece by piece (spec/41_oscillator.md R143, R150, R153). -/

namespace Sys2Proof.Machine

/-- Settles O49: each wave type is one branch of the shaper. -/
theorem shaperAdjustsFrequencyOrDuration : Obligations.ShaperAdjustsFrequencyOrDuration :=
  fun _ _ => ⟨rfl, rfl, rfl, rfl⟩

/-- The envelope with its fade in numbers: F = 882 (R143). -/
theorem env_eq (n T : Nat) : env n T = min 1 (min ((n : Rat) / 882) (((T : Rat) - n) / 882)) := rfl

/-- A voice shorter than two fades stays below 1: one of its ramps is always below full level (R153). -/
theorem env_eq_lower_ramp {n T : Nat} (hT : T < 1764) :
    env n T = min ((n : Rat) / 882) (((T : Rat) - n) / 882) := by
  have hT : (T : Rat) < 1764 := by exact_mod_cast hT
  rw [env_eq, min_eq_right]
  rcases le_total (n : Rat) 882 with hn | hn
  · exact (min_le_left _ _).trans (by linarith)
  · exact (min_le_right _ _).trans (by linarith)

/-- A voice no shorter than two fades rises, holds and falls (R153). -/
theorem env_eq_envelope {n T : Nat} (hT : 1764 ≤ T) : env n T = Stated.envelope n T := by
  have hT' : (1764 : Rat) ≤ T := by exact_mod_cast hT
  rw [env_eq, Stated.envelope]
  split_ifs with hrise hhold
  · have hn : (n : Rat) < 882 := by exact_mod_cast hrise
    rw [min_eq_left (a := (n : Rat) / 882) (by linarith), min_eq_right (by linarith)]
  · have hn : (882 : Rat) ≤ n := by exact_mod_cast not_lt.1 hrise
    have hend : (n : Rat) + 882 ≤ T := by exact_mod_cast (by omega : n + 882 ≤ T)
    exact min_eq_left (le_min (by linarith) (by linarith))
  · have hend : (T : Rat) < n + 882 := by exact_mod_cast (by omega : T < n + 882)
    rw [min_eq_right (a := (n : Rat) / 882) (by linarith), min_eq_right (by linarith)]

/-- Settles O46: the pieces for a long voice, the bounds for every voice, the lower ramp for a short one. -/
theorem envelopeShape : Obligations.EnvelopeShape :=
  ⟨fun _ _ hT _ => env_eq_envelope hT, fun n T hn => ⟨env_nonneg hn.le, env_le_one n T⟩,
    fun _ _ hT _ => env_eq_lower_ramp hT⟩

end Sys2Proof.Machine
end

section
/-! One SAMPLE step: the value an active voice renders under every SIN, and its bound (spec/41_oscillator.md R144,
R154). -/

namespace Sys2Proof.Machine

/-- The value of a rendered sample is the product of R144's four factors. -/
theorem sampleValue_value (num : Config.Numerics) (v : Voice) :
    v.sampleValue.value num =
      num.SIN v.theta * (v.vol : Real) * ((env v.elapsed v.total : Rat) : Real) * (3 / 10) := by
  rw [Voice.sampleValue, ofSine_value, Config.master]
  push_cast
  ring

@[simp] theorem exact_zero_value (num : Config.Numerics) : (AudioValue.exact 0).value num = 0 := Rat.cast_zero

/-- Settles O43: the two cases are the two branches of a SAMPLE step with the audio backend ready. -/
theorem sampleStepRendersTheVoice : Obligations.SampleStepRendersTheVoice := by
  intro s rest hin haudio
  rw [step_cons hin, runInput_sample, sampleStep_eq, if_pos haudio]
  constructor
  · intro hactive
    rw [if_pos hactive]
    exact ⟨s.voice.sampleValue, rfl, fun num => sampleValue_value num s.voice⟩
  · intro hinactive
    rw [if_neg (by simp [hinactive])]

/-- Each factor of a rendered sample other than the master scale has magnitude at most 1 (R154). -/
theorem abs_sampleValue_le (num : Config.Numerics) {v : Voice} (hv : v.Good) :
    |v.sampleValue.value num| ≤ 3 / 10 * (v.vol : Real) := by
  have hsin : |num.SIN v.theta| ≤ 1 := num.bounded _ hv.theta_nonneg hv.theta_lt_one
  have hvol : (0 : Real) ≤ v.vol := by exact_mod_cast hv.vol_nonneg
  have henv0 : (0 : Real) ≤ (env v.elapsed v.total : Rat) := by exact_mod_cast env_nonneg hv.elapsed_le_total
  have henv1 : ((env v.elapsed v.total : Rat) : Real) ≤ 1 := by exact_mod_cast env_le_one v.elapsed v.total
  calc |v.sampleValue.value num|
      = |num.SIN v.theta| * ((v.vol : Real) * (env v.elapsed v.total : Rat)) * (3 / 10) := by
        rw [sampleValue_value, abs_mul, abs_mul, abs_mul, abs_of_nonneg hvol, abs_of_nonneg henv0,
          abs_of_pos (by norm_num : (0 : Real) < 3 / 10)]
        ring
    _ ≤ 1 * ((v.vol : Real) * 1) * (3 / 10) := by gcongr
    _ = 3 / 10 * (v.vol : Real) := by ring

end Sys2Proof.Machine
end

section
/-! Only the SAMPLE step renders samples: a bus operation and a FRAME step add no `audioOut` event, and neither takes
an input (spec/20_memory.md R56, spec/43_port_ops.md R225). -/

namespace Sys2Proof.Machine

open Sys2Proof.Stated

theorem samples_append (es fs : List Event) : samples (es ++ fs) = samples es ++ samples fs :=
  List.filterMap_append

theorem mem_samples {es : List Event} {v : AudioValue} (h : .audioOut v ∈ es) : v ∈ samples es :=
  List.mem_filterMap.2 ⟨_, h, rfl⟩

/-- From s to t the inputs stay and no sample is rendered. -/
structure Silent (s t : State) : Prop where
  inputs : t.inputs = s.inputs
  out : ∃ es, t.out = s.out ++ es ∧ samples es = []

theorem Silent.of_eq {s t : State} (hinputs : t.inputs = s.inputs) (hout : t.out = s.out) : Silent s t :=
  ⟨hinputs, [], by simp [hout], rfl⟩

theorem Silent.refl (s : State) : Silent s s := .of_eq rfl rfl

theorem Silent.trans {s t u : State} (hst : Silent s t) (htu : Silent t u) : Silent s u := by
  obtain ⟨es, hes, hno⟩ := hst.out
  obtain ⟨fs, hfs, hno'⟩ := htu.out
  exact ⟨htu.inputs.trans hst.inputs, es ++ fs, by rw [hfs, hes, List.append_assoc],
    by rw [samples_append, hno, hno']; rfl⟩

/-- What a silent change adds to the output holds no sample. -/
theorem Silent.samples_eq_nil {s t : State} (h : Silent s t) {es : List Event} (hes : t.out = s.out ++ es) :
    samples es = [] := by
  obtain ⟨fs, hfs, hno⟩ := h.out
  rw [List.append_cancel_left (hes.symm.trans hfs), hno]

variable (s : State)

theorem silent_trigger (f : Rat) (T : Nat) (vol : Rat) : Silent s (s.trigger f T vol) := by
  rw [trigger_eq]
  exact .of_eq rfl rfl

theorem silent_degradeIf (b : Bool) (d : Degrade) : Silent s (s.degradeIf b d) := by
  rw [degradeIf_eq]
  exact .of_eq rfl rfl

theorem silent_playSample (id : Word) : Silent s (s.playSample id) := by
  rw [playSample_eq]
  refine ⟨rfl, _, rfl, ?_⟩
  split_ifs <;> rfl

theorem silent_triggerHighlight (k : Key) (n : Nat) : Silent s (s.triggerHighlight k n) := by
  rw [triggerHighlight_eq]
  refine ⟨rfl, _, rfl, ?_⟩
  split_ifs <;> rfl

theorem silent_assignColor (k : Key) (c : BitVec 8) : Silent s (s.assignColor k c) := by
  rw [assignColor_eq]
  refine ⟨rfl, _, rfl, ?_⟩
  split_ifs <;> rfl

theorem silent_frameStep : Silent s s.frameStep := by
  rw [frameStep_eq]
  refine ⟨rfl, _, rfl, ?_⟩
  split_ifs
  · exact List.filterMap_eq_nil_iff.2 (by simp)
  · rfl

theorem silent_drawKey : Silent s s.drawKey.2 := by
  rw [drawKey_eq]
  exact .of_eq rfl rfl

theorem silent_twoPhase {assign : State → Key → Word → State} (hassign : ∀ k v, Silent s (assign s k v))
    (w : Word) : Silent s (s.twoPhase assign w) := by
  unfold State.twoPhase
  split
  · split_ifs <;> exact .of_eq rfl rfl
  · exact (hassign ..).trans (.of_eq rfl rfl)

/-- The sample part of a key's sound is a request for the sample that the key's mode plays, if any (R214). -/
theorem keySamplePart_eq (b : Binding) : s.keySamplePart b = (soundSample b).elim s s.playSample := by
  obtain ⟨_, sample, _, mode, _⟩ := b
  unfold State.keySamplePart soundSample Binding.modeOrDefault
  rcases mode with _ | (_ | _ | _ | _) <;> cases sample <;> rfl

/-- The frequency part of a key's sound is a shaped note of the frequency that the key's mode plays, if any (R214). -/
theorem keyFrequencyPart_eq (b : Binding) :
    s.keyFrequencyPart b =
      (soundFreq b).elim s fun f => s.triggerShaped (f.toNat : Rat) b.waveOrDefault Config.keyNoteSamples := by
  obtain ⟨freq, _, _, mode, _⟩ := b
  unfold State.keyFrequencyPart soundFreq Binding.modeOrDefault
  rcases mode with _ | (_ | _ | _ | _) <;> cases freq <;> rfl

theorem silent_keySound (k : Key) : Silent s (s.keySound k) := by
  have hsample : Silent s (s.keySamplePart (s.binding k)) := by
    rw [keySamplePart_eq]
    cases soundSample (s.binding k) with
    | none => exact .refl s
    | some id => exact silent_playSample s id
  rw [State.keySound, keyFrequencyPart_eq]
  refine hsample.trans ?_
  cases soundFreq (s.binding k) with
  | none => exact .refl _
  | some f => exact silent_trigger ..

variable {s}

/-- No bus operation renders a sample or takes an input. -/
theorem silent_of_exec {i : Instr} {t : State} (h : exec i s = .next t) : Silent s t := by
  cases i with
  | getkey =>
    cases h
    split_ifs
    · exact (silent_drawKey s).trans (.of_eq rfl rfl)
    · exact ((silent_drawKey s).trans (silent_triggerHighlight ..)).trans (.of_eq rfl rfl)
  | playfreq f d w => cases h; exact ((silent_degradeIf ..).trans (silent_trigger ..)).trans (.of_eq rfl rfl)
  | playsmp id => cases h; exact (silent_playSample s id).trans (.of_eq rfl rfl)
  | showkey k x =>
    cases h
    exact ((silent_triggerHighlight ..).trans (silent_keySound ..)).trans (.of_eq rfl rfl)
  | cfgfreq w => cases h; exact (silent_twoPhase s (fun _ _ => .of_eq rfl rfl) w).trans (.of_eq rfl rfl)
  | cfgsmp w => cases h; exact (silent_twoPhase s (fun _ _ => .of_eq rfl rfl) w).trans (.of_eq rfl rfl)
  | cfgcol w => cases h; exact (silent_twoPhase s (fun _ _ => silent_assignColor ..) w).trans (.of_eq rfl rfl)
  | listsmp w => cases h; exact ⟨rfl, [.listSamples], rfl, rfl⟩
  | playcomb f id => cases h; exact ((silent_playSample ..).trans (silent_trigger ..)).trans (.of_eq rfl rfl)
  | setmode k m w => cases h; exact (silent_degradeIf ..).trans (.of_eq rfl rfl)
  | rdfreq | smpcount | unknownRd | unknownWr => cases h; exact .of_eq rfl rfl

/-- What a SAMPLE step emits is the voice's value or, when the voice is inactive, 0 (R144). -/
theorem audioOut_of_sampleStep {es : List Event} {v : AudioValue} (hout : s.sampleStep.out = s.out ++ es)
    (hv : .audioOut v ∈ es) : v = s.voice.sampleValue ∨ v = .exact 0 := by
  rw [sampleStep_eq] at hout
  split_ifs at hout
  · obtain rfl := List.append_cancel_left hout
    exact .inl (by simpa using hv)
  · obtain rfl := List.append_cancel_left hout
    exact .inr (by simpa using hv)
  · obtain rfl : es = [] := List.self_eq_append_right.1 hout
    exact absurd hv List.not_mem_nil

/-- A step that adds an `audioOut` event is a SAMPLE step, and the value is the voice's or, when it is inactive, 0. -/
theorem audioOut_of_step {t : State} {es : List Event} {v : AudioValue} (h : step s = .next t)
    (hout : t.out = s.out ++ es) (hv : .audioOut v ∈ es) : v = s.voice.sampleValue ∨ v = .exact 0 := by
  have hsout : s.takeInput.2.out = s.out := by rw [takeInput_eq]
  have hsvoice : s.takeInput.2.voice = s.voice := by rw [takeInput_eq]
  have hmem : v ∈ samples es := mem_samples hv
  rw [← hsout] at hout
  rw [step] at h
  cases hi : s.takeInput.1 with
  | bus tr =>
    rw [hi] at h
    rw [(silent_of_exec h).samples_eq_nil hout] at hmem
    exact absurd hmem List.not_mem_nil
  | frame =>
    rw [hi] at h
    cases h
    rw [(silent_frameStep _).samples_eq_nil hout] at hmem
    exact absurd hmem List.not_mem_nil
  | sample =>
    rw [hi] at h
    cases h
    exact hsvoice ▸ audioOut_of_sampleStep hout hv

/-- Settles O47: an emitted value is the voice's, bounded factor by factor, or 0. -/
theorem emittedValuesAreBounded : Obligations.EmittedValuesAreBounded := by
  intro s t es v num hgood hstep hout hv
  have hvol0 : (0 : Real) ≤ s.voice.vol := by exact_mod_cast hgood.voice.vol_nonneg
  have hvol1 : (s.voice.vol : Real) ≤ 1 := by exact_mod_cast hgood.voice.vol_le_one
  refine ⟨?_, by linarith⟩
  obtain rfl | rfl := audioOut_of_step hstep hout hv
  · exact abs_sampleValue_le num hgood.voice
  · rw [exact_zero_value, abs_zero]
    linarith

end Sys2Proof.Machine
end

section
/-! The closed form of a triggered voice through any interleaving (spec/41_oscillator.md R145, R146). -/

namespace Sys2Proof.Machine

open Sys2Proof.Stated

/-- No bus operation refuses or faults (R261). -/
theorem exec_next (i : Instr) (s : State) : ∃ t, exec i s = .next t := by
  cases i <;> exact ⟨_, rfl⟩

variable {s : State}

theorem voice_playSample {id : Word} (h : ¬ s.params.nSamples.toNat ≤ id.toNat) :
    (s.playSample id).voice = s.voice := by
  rw [playSample_eq]
  exact if_pos (.inl (not_le.1 h))

@[simp] theorem voice_degradeIf (b : Bool) (d : Degrade) : (s.degradeIf b d).voice = s.voice := by
  rw [degradeIf_eq]

@[simp] theorem voice_triggerHighlight (k : Key) (n : Nat) : (s.triggerHighlight k n).voice = s.voice := by
  rw [triggerHighlight_eq]

@[simp] theorem binding_triggerHighlight (k j : Key) (n : Nat) :
    (s.triggerHighlight k n).binding j = s.binding j := by
  rw [triggerHighlight_eq]
  rfl

@[simp] theorem voice_drawKey : s.drawKey.2.voice = s.voice := by rw [drawKey_eq]

/-- A key without a frequency to sound and without a sample out of range leaves the voice (R214). -/
theorem voice_keySound {k : Key} (hfreq : soundFreq (s.binding k) = none)
    (hsample : ∀ id, soundSample (s.binding k) = some id → ¬ s.params.nSamples.toNat ≤ id.toNat) :
    (s.keySound k).voice = s.voice := by
  rw [State.keySound, keyFrequencyPart_eq, hfreq, Option.elim_none, keySamplePart_eq]
  cases h : soundSample (s.binding k) with
  | none => rfl
  | some id => exact voice_playSample (hsample id h)

theorem voice_twoPhase {assign : State → Key → Word → State} (hassign : ∀ k v, (assign s k v).voice = s.voice)
    (w : Word) : (s.twoPhase assign w).voice = s.voice := by
  unfold State.twoPhase
  split
  · split_ifs <;> rfl
  · exact hassign ..

/-- A bus operation that calls for no trigger leaves the voice (R33). -/
theorem voice_of_exec {i : Instr} {t : State} (hquiet : ¬ Triggers i s) (h : exec i s = .next t) :
    t.voice = s.voice := by
  cases i with
  | getkey =>
    cases h
    split_ifs <;> simp
  | playfreq | playcomb => exact absurd trivial hquiet
  | playsmp id => cases h; exact voice_playSample hquiet
  | showkey k x =>
    cases h
    obtain ⟨hfreq, hsample⟩ := not_or.1 hquiet
    refine (voice_keySound ?_ ?_).trans (voice_triggerHighlight ..)
    · rw [binding_triggerHighlight]
      simpa using hfreq
    · rw [binding_triggerHighlight, params_triggerHighlight]
      exact fun id hid hle => hsample ⟨id, hid, hle⟩
  | cfgfreq w => cases h; exact voice_twoPhase (fun _ _ => rfl) w
  | cfgsmp w => cases h; exact voice_twoPhase (fun _ _ => rfl) w
  | cfgcol w => cases h; exact voice_twoPhase (fun _ _ => by rw [assignColor_eq]) w
  | setmode k m w => cases h; exact voice_degradeIf ..
  | rdfreq | smpcount | listsmp | unknownRd | unknownWr => cases h; rfl

/-- One more sample advances the closed form's phase by f/R turns (R142). -/
theorem nextTheta_phase (f : Rat) (n : Nat) : nextTheta (phase f n) f = phase f (n + 1) := by
  calc nextTheta (phase f n) f = frac ((n : Rat) * f / 44100 + f / 44100) := frac_frac_add _ _
    _ = phase f (n + 1) := by
      rw [← add_div, ← add_one_mul, ← Nat.cast_add_one]
      rfl

/-- The voice of a trigger (f, T, vol) after n SAMPLE steps (R145, R146). -/
def renderedVoice (f vol : Rat) (T n : Nat) : Voice := ⟨decide (n < T), f, phase f (min T n), vol, T, min T n⟩

/-- What the n-th SAMPLE step after a trigger (f, T, vol) emits (R145). -/
def renderedValue (f vol : Rat) (T n : Nat) : AudioValue :=
  if n < T then (renderedVoice f vol T n).sampleValue else .exact 0

theorem phase_zero (f : Rat) : phase f 0 = 0 := by
  calc phase f 0 = frac 0 := by simp [phase, frac]
    _ = 0 := frac_eq_self le_rfl one_pos

theorem renderedVoice_zero (f vol : Rat) {T : Nat} (hT : 0 < T) :
    renderedVoice f vol T 0 = ⟨true, f, 0, vol, T, 0⟩ := by
  simp [renderedVoice, phase_zero, hT]

theorem renderedVoice_advance (f vol : Rat) {T n : Nat} (hn : n < T) :
    (renderedVoice f vol T n).advance = renderedVoice f vol T (n + 1) := by
  have hflag : decide (n + 1 ≠ T) = decide (n + 1 < T) := decide_eq_decide.2 (by omega)
  simp only [renderedVoice, Voice.advance, activeAfterSample, min_eq_right hn.le, min_eq_right (Nat.succ_le_of_lt hn),
    nextTheta_phase, hflag]

theorem renderedVoice_of_ended (f vol : Rat) {T n : Nat} (hn : T ≤ n) :
    renderedVoice f vol T n = ⟨false, f, phase f T, vol, T, T⟩ := by
  simp [renderedVoice, hn]

theorem renderedValue_value (num : Config.Numerics) (f vol : Rat) (T n : Nat) :
    (renderedValue f vol T n).value num =
      if n < T then num.SIN (phase f n) * (vol : Real) * ((env n T : Rat) : Real) * (3 / 10) else 0 := by
  unfold renderedValue
  split_ifs with hn
  · rw [sampleValue_value, renderedVoice, min_eq_right hn.le]
  · exact exact_zero_value num

/-- A SAMPLE step renders the closed form's value and moves to its next voice. -/
theorem sampleStep_renderedVoice {f vol : Rat} {T n : Nat} (haudio : s.params.audioReady = true)
    (hvoice : s.voice = renderedVoice f vol T n) :
    s.sampleStep = { s with
      voice := renderedVoice f vol T (n + 1)
      out := s.out ++ [.audioOut (renderedValue f vol T n)] } := by
  rw [sampleStep_eq, if_pos haudio, renderedValue]
  by_cases hn : n < T
  · have hactive : s.voice.active = true := by simp [hvoice, renderedVoice, hn]
    rw [if_pos hactive, if_pos hn, hvoice, renderedVoice_advance f vol hn]
  · have hactive : ¬ s.voice.active = true := by simp [hvoice, renderedVoice, hn]
    rw [if_neg hactive, if_neg hn, renderedVoice_of_ended f vol (by omega : T ≤ n + 1),
      ← renderedVoice_of_ended f vol (not_lt.1 hn), ← hvoice]

/-- The invariant of the run: n SAMPLE steps after s, the voice and the emitted values are the closed form's. -/
structure RendersClosedForm (s : State) (f vol : Rat) (T n : Nat) (t : State) : Prop where
  audio : t.params.audioReady = true
  voice : t.voice = renderedVoice f vol T n
  out : ∃ es, t.out = s.out ++ es ∧ samples es = (List.range n).map (renderedValue f vol T)

section
variable {f vol : Rat} {T n : Nat} {t u : State}

/-- What renders no sample and leaves parameters and voice keeps the closed form where it is. -/
theorem RendersClosedForm.of_silent (h : RendersClosedForm s f vol T n t) (hsilent : Silent t u)
    (hparams : u.params = t.params) (hvoice : u.voice = t.voice) : RendersClosedForm s f vol T n u := by
  obtain ⟨es, hes, hvalues⟩ := h.out
  obtain ⟨fs, hfs, hno⟩ := hsilent.out
  exact ⟨hparams ▸ h.audio, hvoice.trans h.voice, es ++ fs, by rw [hfs, hes, List.append_assoc],
    by rw [samples_append, hno, List.append_nil, hvalues]⟩

theorem RendersClosedForm.sampleStep (h : RendersClosedForm s f vol T n t) :
    RendersClosedForm s f vol T (n + 1) t.sampleStep := by
  obtain ⟨es, hes, hvalues⟩ := h.out
  rw [sampleStep_renderedVoice h.audio h.voice]
  refine ⟨h.audio, rfl, es ++ [.audioOut (renderedValue f vol T n)], by rw [hes, List.append_assoc], ?_⟩
  rw [samples_append, hvalues, List.range_succ, List.map_append]
  rfl

theorem RendersClosedForm.frameStep (h : RendersClosedForm s f vol T n t) :
    RendersClosedForm s f vol T n t.frameStep :=
  h.of_silent (silent_frameStep t) (params_frameStep t) (voice_frameStep t)

theorem RendersClosedForm.exec {i : Instr} (h : RendersClosedForm s f vol T n t) (hquiet : ¬ Triggers i t)
    (hu : exec i t = .next u) : RendersClosedForm s f vol T n u :=
  h.of_silent (silent_of_exec hu) (params_of_exec hu) (voice_of_exec hquiet hu)

/-- Taking the head of the pending inputs is no part of the closed form. -/
theorem RendersClosedForm.withInputs (h : RendersClosedForm s f vol T n t) (todo : List Input) :
    RendersClosedForm s f vol T n { t with inputs := todo } := ⟨h.audio, h.voice, h.out⟩

end

/-- The closed form holds all along a run without a trigger, at the count of its SAMPLE steps (R145, R56). -/
theorem rendersClosedForm_run {l rest : List Input} {f vol : Rat} {T : Nat} (hl : s.inputs = l ++ rest)
    (hbus : BusSteps l.length s fun i u => ¬ Triggers i u) (start : RendersClosedForm s f vol T 0 s) :
    ∃ t, Sys2Proof.core.run l.length s = .next t ∧ t.inputs = rest ∧
      RendersClosedForm s f vol T (l.count .sample) t := by
  refine run_inputs (P := fun done t => RendersClosedForm s f vol T (done.count .sample) t) hl start ?_
  intro i done t todo hlen hrun ht hin
  have htaken := ht.withInputs todo
  rw [List.count_append]
  cases i with
  | bus tr =>
    obtain ⟨u, hu⟩ := exec_next (decode tr) { t with inputs := todo }
    exact ⟨u, hu, (silent_of_exec hu).inputs, htaken.exec (hbus done.length t tr todo hlen hrun hin) hu⟩
  | sample => exact ⟨_, rfl, inputs_sampleStep _, htaken.sampleStep⟩
  | frame => exact ⟨_, rfl, inputs_frameStep _, htaken.frameStep⟩

/-- Settles O45: the trigger's voice is the closed form at 0, and the run keeps the closed form. -/
theorem triggeredVoiceRendersItsClosedForm : Obligations.TriggeredVoiceRendersItsClosedForm := by
  intro s l rest f vol T haudio hT hvoice hl hbus
  have start : RendersClosedForm s f vol T 0 s :=
    ⟨haudio, hvoice.trans (renderedVoice_zero f vol hT).symm, [], (List.append_nil _).symm, rfl⟩
  obtain ⟨t, hrun, hrest, -, htvoice, es, hes, hvalues⟩ := rendersClosedForm_run hl hbus start
  refine ⟨t, es, hrun, hrest, hes, by rw [htvoice]; rfl, by rw [htvoice]; rfl, by rw [htvoice]; rfl,
    by simp [hvalues], fun n hn => ⟨renderedValue f vol T n, ?_, fun num => renderedValue_value num f vol T n⟩⟩
  rw [hvalues, List.getElem?_map, List.getElem?_range hn]
  rfl

end Sys2Proof.Machine
end

section
/-! One FRAME step of the key-state tracker: every timer ticks, and the keys whose timers end are un-highlighted once
each (spec/42_key_tracker.md R185). -/

namespace Sys2Proof.Machine

open Sys2Proof.Stated

variable (s : State)

theorem mem_expiringInOrder (k : Key) : k ∈ s.expiringInOrder ↔ timerEnds (s.timer k) = true :=
  (expiringInOrder_perm s).mem_iff.trans (mem_expiring s k)

theorem out_frameStep : s.frameStep.out = s.out ++ toVisual s (s.expiringInOrder.map fun k => .highlight k false) := by
  rw [frameStep_eq]
  rfl

/-- A timer with frames left ends at the next tick exactly when it is at 1 (R185). -/
theorem timerEnds_iff {timer : Option Nat} (hpos : timer ≠ some 0) : timerEnds timer = true ↔ timer = some 1 := by
  cases timer with
  | none => simp [timerEnds]
  | some n =>
    have hn : n ≠ 0 := fun h => hpos (congrArg some h)
    simp only [timerEnds, decide_eq_true_eq, Option.some.injEq]
    omega

/-- A timer with frames left is removed at 1 and goes down by one otherwise (R185). -/
theorem tickTimer_eq {timer : Option Nat} (hpos : timer ≠ some 0) :
    tickTimer timer = if timer = some 1 then none else timer.map (· - 1) := by
  cases timer with
  | none => rfl
  | some n =>
    have hn : n ≠ 0 := fun h => hpos (congrArg some h)
    have hone : 1 < n ↔ ¬ n = 1 := by omega
    simp [tickTimer, hone]

/-- Settles O51: what a FRAME step does to a timer and which keys it un-highlights, where no timer is at 0. -/
theorem frameStepTicksEveryTimer : Obligations.FrameStepTicksEveryTimer := by
  intro s rest hin hpos
  let u : State := { s with inputs := rest }
  refine ⟨u.frameStep, u.expiringInOrder, u.frameStep.degrades, u.frameStep.drawn, step_cons hin, ?_,
    expiringInOrder_nodup u, fun k => (mem_expiringInOrder u k).trans (timerEnds_iff (hpos k)),
    fun k => (timer_frameStep u k).trans (tickTimer_eq (hpos k))⟩
  rw [frameStep_eq]
  rfl

end Sys2Proof.Machine
end

section
/-! A highlight timer through any interleaving without a trigger of its key (spec/42_key_tracker.md R183, R186). -/

namespace Sys2Proof.Machine

open Sys2Proof.Stated

/-- From s to t the timer of k stays and k is not un-highlighted. -/
structure KeepsHighlight (k : Key) (s t : State) : Prop where
  timer : t.timer k = s.timer k
  out : ∃ es, t.out = s.out ++ es ∧ .highlight k false ∉ es

theorem KeepsHighlight.of_eq {k : Key} {s t : State} (hhl : t.hl = s.hl) (hout : t.out = s.out) :
    KeepsHighlight k s t := ⟨by rw [State.timer, hhl]; rfl, [], by simp [hout], List.not_mem_nil⟩

theorem KeepsHighlight.trans {k : Key} {s t u : State} (hst : KeepsHighlight k s t) (htu : KeepsHighlight k t u) :
    KeepsHighlight k s u := by
  obtain ⟨es, hes, hno⟩ := hst.out
  obtain ⟨fs, hfs, hno'⟩ := htu.out
  exact ⟨htu.timer.trans hst.timer, es ++ fs, by rw [hfs, hes, List.append_assoc], by simp [hno, hno']⟩

section
variable (k : Key) (s : State)

theorem keepsHighlight_degradeIf (b : Bool) (d : Degrade) : KeepsHighlight k s (s.degradeIf b d) := by
  rw [degradeIf_eq]
  exact .of_eq rfl rfl

theorem keepsHighlight_trigger (f : Rat) (T : Nat) (vol : Rat) : KeepsHighlight k s (s.trigger f T vol) := by
  rw [trigger_eq]
  exact .of_eq rfl rfl

theorem keepsHighlight_playSample (id : Word) : KeepsHighlight k s (s.playSample id) := by
  rw [playSample_eq]
  refine ⟨rfl, _, rfl, ?_⟩
  split_ifs <;> simp

theorem keepsHighlight_assignColor (j : Key) (c : BitVec 8) : KeepsHighlight k s (s.assignColor j c) := by
  rw [assignColor_eq]
  refine ⟨rfl, _, rfl, ?_⟩
  split_ifs <;> simp

theorem keepsHighlight_drawKey : KeepsHighlight k s s.drawKey.2 := by
  rw [drawKey_eq]
  exact .of_eq rfl rfl

theorem keepsHighlight_sampleStep : KeepsHighlight k s s.sampleStep := by
  refine ⟨timer_sampleStep s k, ?_⟩
  rw [sampleStep_eq]
  split_ifs
  · exact ⟨_, rfl, by simp⟩
  · exact ⟨_, rfl, by simp⟩
  · exact ⟨[], (List.append_nil _).symm, List.not_mem_nil⟩

/-- A highlight of another key leaves k's timer, and it is no un-highlight (R183). -/
theorem keepsHighlight_triggerHighlight {j : Key} (hj : j ≠ k) (n : Nat) :
    KeepsHighlight k s (s.triggerHighlight j n) := by
  have htimer : (s.setTimer j (some n)).timer k = s.timer k := by rw [timer_setTimer, if_neg hj.symm]
  rw [triggerHighlight_eq]
  refine ⟨htimer, _, rfl, ?_⟩
  split_ifs <;> simp

theorem keepsHighlight_keySound (j : Key) : KeepsHighlight k s (s.keySound j) := by
  have hsample : KeepsHighlight k s (s.keySamplePart (s.binding j)) := by
    rw [keySamplePart_eq]
    cases soundSample (s.binding j) with
    | none => exact .of_eq rfl rfl
    | some id => exact keepsHighlight_playSample k s id
  rw [State.keySound, keyFrequencyPart_eq]
  refine hsample.trans ?_
  cases soundFreq (s.binding j) with
  | none => exact .of_eq rfl rfl
  | some f => exact keepsHighlight_trigger ..

theorem keepsHighlight_twoPhase {assign : State → Key → Word → State}
    (hassign : ∀ j v, KeepsHighlight k s (assign s j v)) (w : Word) : KeepsHighlight k s (s.twoPhase assign w) := by
  unfold State.twoPhase
  split
  · split_ifs <;> exact .of_eq rfl rfl
  · exact (hassign ..).trans (.of_eq rfl rfl)

end

variable {k : Key} {s : State}

/-- A bus operation that does not trigger the highlight of k leaves it (R33, R183). -/
theorem keepsHighlight_of_exec {i : Instr} {t : State} (hquiet : ¬ Highlights k i s) (h : exec i s = .next t) :
    KeepsHighlight k s t := by
  cases i with
  | getkey =>
    cases h
    rw [show s.drawKey.1 = drawn s from drawKey_fst s]
    split_ifs with hnone
    · exact (keepsHighlight_drawKey k s).trans (.of_eq rfl rfl)
    · have hj : lower (drawn s) ≠ k := fun hk => hquiet ⟨hnone, hk⟩
      exact ((keepsHighlight_drawKey k s).trans (keepsHighlight_triggerHighlight k _ hj _)).trans (.of_eq rfl rfl)
  | playfreq f d w =>
    cases h
    exact ((keepsHighlight_degradeIf ..).trans (keepsHighlight_trigger ..)).trans (.of_eq rfl rfl)
  | playsmp id => cases h; exact (keepsHighlight_playSample k s id).trans (.of_eq rfl rfl)
  | showkey j x =>
    cases h
    exact ((keepsHighlight_triggerHighlight k s hquiet _).trans (keepsHighlight_keySound ..)).trans (.of_eq rfl rfl)
  | cfgfreq w => cases h; exact (keepsHighlight_twoPhase k s (fun _ _ => .of_eq rfl rfl) w).trans (.of_eq rfl rfl)
  | cfgsmp w => cases h; exact (keepsHighlight_twoPhase k s (fun _ _ => .of_eq rfl rfl) w).trans (.of_eq rfl rfl)
  | cfgcol w =>
    cases h
    exact (keepsHighlight_twoPhase k s (fun _ _ => keepsHighlight_assignColor ..) w).trans (.of_eq rfl rfl)
  | listsmp w => cases h; exact ⟨rfl, [.listSamples], rfl, by simp⟩
  | playcomb f id =>
    cases h
    exact ((keepsHighlight_playSample ..).trans (keepsHighlight_trigger ..)).trans (.of_eq rfl rfl)
  | setmode j m w => cases h; exact (keepsHighlight_degradeIf ..).trans (.of_eq rfl rfl)
  | rdfreq | smpcount | unknownRd | unknownWr => cases h; exact .of_eq rfl rfl

/-- A FRAME step un-highlights k once if its timer ends and the visual backend is there, else not at all (R185). -/
theorem count_unhighlights_frameStep :
    (toVisual s (s.expiringInOrder.map fun j => .highlight j false)).count (.highlight k false) =
      if timerEnds (s.timer k) = true ∧ s.params.visualReady = true then 1 else 0 := by
  have hinj : Function.Injective fun j : Key => Event.highlight j false := fun _ _ h => (Event.highlight.inj h).1
  have honce : s.expiringInOrder.count k = if timerEnds (s.timer k) = true then 1 else 0 := by
    simp only [(expiringInOrder_nodup s).count, mem_expiringInOrder]
  rw [toVisual]
  by_cases hvisual : s.params.visualReady = true
  · simp only [hvisual, if_true, and_true]
    exact (List.count_map_of_injective _ _ hinj k).trans honce
  · simp [hvisual]

/-- A timer of N frames after n FRAME steps without a new trigger (R186). -/
def remaining (N n : Nat) : Option Nat := if n < N then some (N - n) else none

theorem tickTimer_remaining (N n : Nat) : tickTimer (remaining N n) = remaining N (n + 1) := by
  unfold remaining
  split_ifs with hn hn'
  · have hleft : 1 < N - n := by omega
    simp only [tickTimer, hleft, if_true, Nat.sub_sub]
  · have hleft : ¬ 1 < N - n := by omega
    simp only [tickTimer, hleft, if_false]
  · omega
  · rfl

theorem timerEnds_remaining (N n : Nat) : timerEnds (remaining N n) = true ↔ n + 1 = N := by
  unfold remaining
  split_ifs with hn
  · simp only [timerEnds, decide_eq_true_eq]
    omega
  · simp only [timerEnds, Bool.false_eq_true, false_iff]
    omega

/-- The invariant of the run: n FRAME steps after s, the timer of k has N - n frames left, and k has been un-highlighted
when none is left. -/
structure TimerRuns (s : State) (k : Key) (N n : Nat) (t : State) : Prop where
  visual : t.params.visualReady = s.params.visualReady
  timer : t.timer k = remaining N n
  out : ∃ es, t.out = s.out ++ es ∧
    es.count (.highlight k false) = if n < N ∨ s.params.visualReady = false then 0 else 1

section
variable {N n : Nat} {t u : State}

/-- What leaves the parameters and the highlight of k keeps the timer where it is. -/
theorem TimerRuns.of_keepsHighlight (h : TimerRuns s k N n t) (hkeeps : KeepsHighlight k t u)
    (hparams : u.params = t.params) : TimerRuns s k N n u := by
  obtain ⟨es, hes, hcount⟩ := h.out
  obtain ⟨fs, hfs, hno⟩ := hkeeps.out
  exact ⟨hparams ▸ h.visual, hkeeps.timer.trans h.timer, es ++ fs, by rw [hfs, hes, List.append_assoc],
    by rw [List.count_append, List.count_eq_zero_of_not_mem hno, hcount, Nat.add_zero]⟩

theorem TimerRuns.exec {i : Instr} (h : TimerRuns s k N n t) (hquiet : ¬ Highlights k i t)
    (hu : exec i t = .next u) : TimerRuns s k N n u :=
  h.of_keepsHighlight (keepsHighlight_of_exec hquiet hu) (params_of_exec hu)

/-- The N-th FRAME step is the one that un-highlights k. -/
theorem TimerRuns.frameStep (h : TimerRuns s k N n t) : TimerRuns s k N (n + 1) t.frameStep := by
  obtain ⟨es, hes, hcount⟩ := h.out
  refine ⟨(congrArg _ (params_frameStep t)).trans h.visual, ?_,
    es ++ toVisual t (t.expiringInOrder.map fun j => .highlight j false), ?_, ?_⟩
  · rw [timer_frameStep, h.timer, tickTimer_remaining]
  · rw [out_frameStep, hes, List.append_assoc]
  · rw [List.count_append, hcount, count_unhighlights_frameStep, h.timer, h.visual]
    simp only [timerEnds_remaining]
    cases s.params.visualReady with
    | false => simp
    | true =>
      simp only [Bool.true_eq_false, or_false, and_true]
      split_ifs <;> omega

/-- Taking the head of the pending inputs is no part of the timer. -/
theorem TimerRuns.withInputs (h : TimerRuns s k N n t) (todo : List Input) :
    TimerRuns s k N n { t with inputs := todo } := ⟨h.visual, h.timer, h.out⟩

end

/-- The timer runs all along a run without a trigger of k, at the count of its FRAME steps (R186, R56). -/
theorem timerRuns_run {l rest : List Input} {N : Nat} (hl : s.inputs = l ++ rest)
    (hbus : BusSteps l.length s fun i u => ¬ Highlights k i u) (start : TimerRuns s k N 0 s) :
    ∃ t, Sys2Proof.core.run l.length s = .next t ∧ t.inputs = rest ∧ TimerRuns s k N (l.count .frame) t := by
  refine run_inputs (P := fun done t => TimerRuns s k N (done.count .frame) t) hl start ?_
  intro i done t todo hlen hrun ht hin
  have htaken := ht.withInputs todo
  rw [List.count_append]
  cases i with
  | bus tr =>
    obtain ⟨u, hu⟩ := exec_next (decode tr) { t with inputs := todo }
    exact ⟨u, hu, (silent_of_exec hu).inputs, htaken.exec (hbus done.length t tr todo hlen hrun hin) hu⟩
  | sample =>
    exact ⟨_, rfl, inputs_sampleStep _,
      htaken.of_keepsHighlight (keepsHighlight_sampleStep k _) (params_sampleStep _)⟩
  | frame => exact ⟨_, rfl, inputs_frameStep _, htaken.frameStep⟩

/-- Settles O52: the timer runs from the start, and the run keeps it running. -/
theorem timerRunsItsFrames : Obligations.TimerRunsItsFrames := by
  intro s l rest k N hN htimer hl hbus
  have start : TimerRuns s k N 0 s :=
    ⟨rfl, by simp [htimer, remaining, hN], [], (List.append_nil _).symm, by simp [hN]⟩
  obtain ⟨t, hrun, hrest, -, hend, es, hes, hcount⟩ := timerRuns_run hl hbus start
  exact ⟨t, es, hrun, hrest, hes, hend, hcount⟩

end Sys2Proof.Machine
end

section
/-! Two runs that differ in VISUAL_READY alone, as a simulation: every operation keeps the two states the same but for
the visual events and the trace (spec/42_key_tracker.md R188, spec/60_exceptions.md R265). -/

namespace Sys2Proof.Machine

open Sys2Proof.Stated

/-- No step faults or is refused (R261). -/
theorem step_next (s : State) : ∃ t, step s = .next t := by
  unfold step
  cases s.takeInput.1 with
  | bus tr => exact exec_next (decode tr) _
  | sample | frame => exact ⟨_, rfl⟩

theorem takeInput_fst (s : State) : s.takeInput.1 = s.inputs.head?.getD (Config.freeInput s.drawn) := by
  unfold State.takeInput
  split <;> simp_all

/-- f neither reads nor writes the parameters, the trace and the output. -/
def IgnoresEvents (f : State → State) : Prop :=
  ∀ (u : State) (p : Config.Params) (d : List Degrade) (out : List Event),
    f { u with params := p, degrades := d, out := out } = { f u with params := p, degrades := d, out := out }

section
variable {f : State → State}

theorem IgnoresEvents.params (hf : IgnoresEvents f) (s : State) : (f s).params = s.params :=
  (congrArg State.params (hf s s.params s.degrades s.out) :)

theorem IgnoresEvents.out (hf : IgnoresEvents f) (s : State) : (f s).out = s.out :=
  (congrArg State.out (hf s s.params s.degrades s.out) :)

end

theorem ignoresEvents_drawKey : IgnoresEvents fun s => s.drawKey.2 := fun _ _ _ _ => by simp only [drawKey_eq]
theorem ignoresEvents_takeInput : IgnoresEvents fun s => s.takeInput.2 := fun _ _ _ _ => by simp only [takeInput_eq]

/-- One tick of the timer file, before its events (R185). -/
theorem ignoresEvents_tick :
    IgnoresEvents fun s => { s with hl := tickAll s.hl, drawn := s.drawn + s.expiring.length } := fun _ _ _ _ => rfl

/-- s, with the visual backend, and s', without it, differ by the visual events emitted since the output o, and by the
trace. -/
structure SameButVisual (o : List Event) (s s' : State) : Prop where
  ready : s.params.visualReady = true
  same : ∃ es d, s.out = o ++ es ∧ s' = { s with
    params := { s.params with visualReady := false }
    degrades := d
    out := o ++ es.filter fun e => !e.isVisual }

/-- Without the visual backend a run starts from the same state otherwise. -/
theorem SameButVisual.start {s : State} (hready : s.params.visualReady = true) :
    SameButVisual s.out s { s with params := { s.params with visualReady := false } } :=
  ⟨hready, [], s.degrades, (List.append_nil _).symm, by simp⟩

namespace SameButVisual

variable {o : List Event} {s s' : State}

section
variable (h : SameButVisual o s s')
include h

/-! What the two states agree on. -/

theorem audioReady : s'.params.audioReady = s.params.audioReady := by obtain ⟨-, -, -, -, rfl⟩ := h; rfl
theorem nSamples : s'.params.nSamples = s.params.nSamples := by obtain ⟨-, -, -, -, rfl⟩ := h; rfl
theorem voice : s'.voice = s.voice := by obtain ⟨-, -, -, -, rfl⟩ := h; rfl
theorem binding (k : Key) : s'.binding k = s.binding k := by obtain ⟨-, -, -, -, rfl⟩ := h; rfl
theorem cursor : s'.cursor = s.cursor := by obtain ⟨-, -, -, -, rfl⟩ := h; rfl
theorem drawn : s'.drawn = s.drawn := by obtain ⟨-, -, -, -, rfl⟩ := h; rfl
theorem inputs : s'.inputs = s.inputs := by obtain ⟨-, -, -, -, rfl⟩ := h; rfl
theorem keyAnswers : s'.keyAnswers = s.keyAnswers := by obtain ⟨-, -, -, -, rfl⟩ := h; rfl

/-! The updates that emit nothing. -/

/-- An update that ignores the events is the same update of both states. -/
theorem update (f : State → State) (hf : IgnoresEvents f) : SameButVisual o (f s) (f s') := by
  obtain ⟨hready, es, tr, hes, rfl⟩ := h
  exact ⟨hf.params s ▸ hready, es, tr, (hf.out s).trans hes, by rw [hf, hf.params]⟩

theorem degrade (d : Degrade) : SameButVisual o (s.degrade d) (s'.degrade d) := by
  obtain ⟨hready, es, tr, hes, rfl⟩ := h
  exact ⟨hready, es, tr ++ [d], hes, rfl⟩

theorem answer (w : Word) : SameButVisual o (s.answer w) (s'.answer w) := h.update (·.answer w) fun _ _ _ _ => rfl
theorem acknowledge : SameButVisual o s.acknowledge s'.acknowledge := h.update State.acknowledge fun _ _ _ _ => rfl

theorem setVoice (v : Voice) : SameButVisual o (s.setVoice v) (s'.setVoice v) :=
  h.update (·.setVoice v) fun _ _ _ _ => rfl

theorem setCursor (c : Option Key) : SameButVisual o (s.setCursor c) (s'.setCursor c) :=
  h.update (·.setCursor c) fun _ _ _ _ => rfl

theorem setTimer (k : Key) (n : Option Nat) : SameButVisual o (s.setTimer k n) (s'.setTimer k n) :=
  h.update (·.setTimer k n) fun _ _ _ _ => rfl

theorem assignFrequency (k : Key) (hz : Word) :
    SameButVisual o (s.assignFrequency k hz) (s'.assignFrequency k hz) :=
  h.update (·.assignFrequency k hz) fun _ _ _ _ => rfl

theorem assignSample (k : Key) (id : Word) : SameButVisual o (s.assignSample k id) (s'.assignSample k id) :=
  h.update (·.assignSample k id) fun _ _ _ _ => rfl

theorem assignMode (k : Key) (m : Mode) (wt : WaveType) :
    SameButVisual o (s.assignMode k m wt) (s'.assignMode k m wt) :=
  h.update (·.assignMode k m wt) fun _ _ _ _ => rfl

/-- The host's draw is the same key. -/
theorem drawKey : s'.drawKey.1 = s.drawKey.1 ∧ SameButVisual o s.drawKey.2 s'.drawKey.2 := by
  rw [drawKey_fst, drawKey_fst, h.drawn, h.keyAnswers]
  exact ⟨rfl, h.update _ ignoresEvents_drawKey⟩

/-- The next input is the same one. -/
theorem takeInput : s'.takeInput.1 = s.takeInput.1 ∧ SameButVisual o s.takeInput.2 s'.takeInput.2 := by
  rw [takeInput_fst, takeInput_fst, h.drawn, h.inputs]
  exact ⟨rfl, h.update _ ignoresEvents_takeInput⟩

/-! The events: those of the visual backend reach s only. -/

theorem emit {e : Event} (he : e.isVisual = false) : SameButVisual o (s.emit e) (s'.emit e) := by
  obtain ⟨hready, es, tr, hes, rfl⟩ := h
  refine ⟨hready, es ++ [e], tr, by rw [emit_out, hes, List.append_assoc], ?_⟩
  simp [State.emit, he]

theorem emitVisual {e : Event} (he : e.isVisual = true) : SameButVisual o (s.emitVisual e) (s'.emitVisual e) := by
  obtain ⟨hready, es, tr, hes, rfl⟩ := h
  rw [State.emitVisual, if_pos hready]
  refine ⟨hready, es ++ [e], tr ++ [.backendUninit], by rw [emit_out, hes, List.append_assoc], ?_⟩
  simp [State.emitVisual, State.emit, State.degrade, he]

theorem emitAudio {e : Event} (he : e.isVisual = false) : SameButVisual o (s.emitAudio e) (s'.emitAudio e) := by
  unfold State.emitAudio
  rw [h.audioReady]
  split_ifs
  · exact h.emit he
  · exact h.degrade _

/-! The shared operations. -/

theorem degradeIf (b : Bool) (d : Degrade) : SameButVisual o (s.degradeIf b d) (s'.degradeIf b d) := by
  unfold State.degradeIf
  split_ifs
  · exact h.degrade d
  · exact h

theorem trigger (f : Rat) (T : Nat) (vol : Rat) : SameButVisual o (s.trigger f T vol) (s'.trigger f T vol) := by
  unfold State.trigger
  rw [h.audioReady]
  split_ifs
  · exact h.setVoice _
  · exact h.degrade _

theorem playSample (id : Word) : SameButVisual o (s.playSample id) (s'.playSample id) := by
  unfold State.playSample
  rw [h.nSamples]
  split_ifs
  · exact h.emitAudio rfl
  · exact (h.degrade _).trigger ..

theorem triggerHighlight (k : Key) (n : Nat) :
    SameButVisual o (s.triggerHighlight k n) (s'.triggerHighlight k n) := (h.setTimer k (some n)).emitVisual rfl

theorem keySound (k : Key) : SameButVisual o (s.keySound k) (s'.keySound k) := by
  have hsample : SameButVisual o (s.keySamplePart (s.binding k)) (s'.keySamplePart (s.binding k)) := by
    rw [keySamplePart_eq, keySamplePart_eq]
    cases soundSample (s.binding k) with
    | none => exact h
    | some id => exact h.playSample id
  rw [State.keySound, State.keySound, h.binding, keyFrequencyPart_eq, keyFrequencyPart_eq]
  cases soundFreq (s.binding k) with
  | none => exact hsample
  | some f => exact hsample.trigger ..

theorem assignColor (k : Key) (c : BitVec 8) : SameButVisual o (s.assignColor k c) (s'.assignColor k c) :=
  (h.update (fun u => u.setBinding k { u.binding k with color := some c }) fun _ _ _ _ => rfl).emitVisual rfl

/-- The two-phase protocol keeps the two states the same when the port's assignment does (R110). -/
theorem twoPhase {assign : State → Key → Word → State}
    (hassign : ∀ k v, SameButVisual o (assign s k v) (assign s' k v)) (w : Word) :
    SameButVisual o (s.twoPhase assign w) (s'.twoPhase assign w) := by
  unfold State.twoPhase
  rw [h.cursor]
  cases s.cursor with
  | none =>
    dsimp only
    split_ifs
    · exact h.setCursor _
    · exact h.degrade _
  | some k => exact (hassign k w).setCursor none

theorem pendingFrequency : s'.pendingFrequency = s.pendingFrequency := by
  obtain ⟨-, -, -, -, rfl⟩ := h
  rfl

theorem unhighlightAll (ks : List Key) : SameButVisual o (s.unhighlightAll ks) (s'.unhighlightAll ks) := by
  unfold State.unhighlightAll
  induction ks generalizing s s' with
  | nil => exact h
  | cons k ks ih => exact ih (h.emitVisual rfl)

/-! The steps of the three agents. -/

theorem sampleStep : SameButVisual o s.sampleStep s'.sampleStep := by
  unfold State.sampleStep
  rw [h.audioReady, h.voice]
  split_ifs
  · exact (h.emit rfl).setVoice _
  · exact h.emit rfl
  · exact h

theorem frameStep : SameButVisual o s.frameStep s'.frameStep := by
  have horder : s'.expiringInOrder = s.expiringInOrder := by
    obtain ⟨-, -, -, -, rfl⟩ := h
    rfl
  unfold State.frameStep
  rw [horder]
  exact (h.update _ ignoresEvents_tick).unhighlightAll _

theorem exec {i : Instr} {t : State} (ht : Machine.exec i s = .next t) :
    ∃ t', Machine.exec i s' = .next t' ∧ SameButVisual o t t' := by
  cases i with
  | getkey =>
    cases ht
    obtain ⟨hkey, hdraw⟩ := h.drawKey
    refine ⟨_, rfl, ?_⟩
    rw [hkey]
    split_ifs
    · exact hdraw.answer 0
    · exact (hdraw.triggerHighlight ..).answer _
  | playfreq f d w => cases ht; exact ⟨_, rfl, ((h.degradeIf ..).trigger ..).acknowledge⟩
  | playsmp id => cases ht; exact ⟨_, rfl, (h.playSample id).acknowledge⟩
  | showkey k x => cases ht; exact ⟨_, rfl, ((h.triggerHighlight ..).keySound _).acknowledge⟩
  | cfgfreq w => cases ht; exact ⟨_, rfl, (h.twoPhase h.assignFrequency w).acknowledge⟩
  | rdfreq => cases ht; exact ⟨_, rfl, h.pendingFrequency ▸ h.answer _⟩
  | cfgsmp w => cases ht; exact ⟨_, rfl, (h.twoPhase h.assignSample w).acknowledge⟩
  | cfgcol w => cases ht; exact ⟨_, rfl, (h.twoPhase (fun _ _ => h.assignColor ..) w).acknowledge⟩
  | smpcount => cases ht; exact ⟨_, rfl, h.nSamples ▸ h.answer _⟩
  | listsmp w => cases ht; exact ⟨_, rfl, (h.emit rfl).acknowledge⟩
  | playcomb f id => cases ht; exact ⟨_, rfl, ((h.playSample _).trigger ..).acknowledge⟩
  | setmode k m w => cases ht; exact ⟨_, rfl, ((h.degradeIf ..).assignMode ..).acknowledge⟩
  | unknownRd a => cases ht; exact ⟨_, rfl, (h.degrade _).answer 0⟩
  | unknownWr a w => cases ht; exact ⟨_, rfl, (h.degrade _).acknowledge⟩

/-- Every step of every agent keeps the two states the same (R18). -/
theorem step {t : State} (ht : Machine.step s = .next t) : ∃ t', Machine.step s' = .next t' ∧ SameButVisual o t t' := by
  obtain ⟨hinput, htaken⟩ := h.takeInput
  rw [Machine.step] at ht ⊢
  rw [hinput]
  cases hi : s.takeInput.1 with
  | bus tr => rw [hi] at ht; exact htaken.exec ht
  | sample => rw [hi] at ht; cases ht; exact ⟨_, rfl, htaken.sampleStep⟩
  | frame => rw [hi] at ht; cases ht; exact ⟨_, rfl, htaken.frameStep⟩

end

/-- Every run keeps the two states the same. -/
theorem run (h : SameButVisual o s s') {n : Nat} {t : State} (ht : Sys2Proof.core.run n s = .next t) :
    ∃ t', Sys2Proof.core.run n s' = .next t' ∧ SameButVisual o t t' := by
  induction n generalizing s s' with
  | zero =>
    cases ht
    exact ⟨s', rfl, h⟩
  | succ n ih =>
    obtain ⟨u, hu⟩ := step_next s
    obtain ⟨u', hu', hsame⟩ := h.step hu
    rw [run_succ hu] at ht
    rw [run_succ hu']
    exact ih hsame ht

end SameButVisual

/-- Settles O53: the simulation at the end of the run, read off. -/
theorem visualReadinessOnlyDropsEvents : Obligations.VisualReadinessOnlyDropsEvents := by
  intro s t n hready ht
  obtain ⟨t', ht', -, es, d, hes, rfl⟩ := (SameButVisual.start hready).run ht
  exact ⟨es, d, hes, ht'⟩

end Sys2Proof.Machine
end

section
/-! The shared operations in the words of the statements: a trigger, a sample request and the sound of a key, each whole
(spec/40_decoder.md R113; spec/41_oscillator.md R141, R150; spec/43_port_ops.md R214). -/

namespace Sys2Proof.Machine

open Sys2Proof.Stated

/-- The shaper, a component at a time: types 2 and 3 scale the frequency, type 1 the duration (R150). -/
theorem shape_eq (f : Rat) (wt : WaveType) (T : Nat) :
    shape f wt T = (if wt.val = 2 then 11 * f / 10 else if wt.val = 3 then 9 * f / 10 else f,
      if wt.val = 1 then 4 * T / 5 else T) := by
  fin_cases wt <;> rfl

/-- A bound frequency is shaped by its key's wave type, which is 0 when unset (R31, R214). -/
theorem shape_binding (b : Binding) (f : Word) :
    shape (f.toNat : Rat) b.waveOrDefault Config.keyNoteSamples = (shapedFreq b f, shapedSamples b) := by
  obtain ⟨_, _, _, _, wave⟩ := b
  cases wave with
  | none => rfl
  | some wt => fin_cases wt <;> rfl

theorem shapedSamples_pos (b : Binding) : 0 < shapedSamples b := by
  unfold shapedSamples
  split_ifs <;> decide

/-- The trace of one event or trigger for a backend: BackendUninit when it is not ready (R265; log 8). -/
def dropTrace (ready : Bool) : List Degrade := if ready = true then [] else [.backendUninit]

@[simp] theorem sampleRange_not_mem_dropTrace (ready : Bool) : .sampleRange ∉ dropTrace ready := by
  cases ready <;> decide

@[simp] theorem cursorMisuse_not_mem_dropTrace (ready : Bool) : .cursorMisuse ∉ dropTrace ready := by
  cases ready <;> decide

section
variable (s : State)

/-- A trigger of at least one sample, at VOLUME (R141, R265). -/
theorem trigger_eq_triggered (f : Rat) {T : Nat} (hT : 0 < T) :
    s.trigger f T Config.volume = { s with
      voice := triggered s f T
      degrades := s.degrades ++ dropTrace s.params.audioReady } := by
  rw [trigger_eq, decide_eq_true hT]
  rfl

/-- The classes of a sample request (R113, R260). -/
theorem classes_playsmp (id : Word) :
    classes (.playsmp id) s = if id.toNat < s.params.nSamples.toNat then dropTrace s.params.audioReady
      else .sampleRange :: dropTrace s.params.audioReady := rfl

/-- A sample request is SampleRange exactly when no sample has the id (R113). -/
theorem sampleRange_mem_classes_playsmp (id : Word) :
    .sampleRange ∈ classes (.playsmp id) s ↔ s.params.nSamples.toNat ≤ id.toNat := by
  rw [classes_playsmp]
  split_ifs with hrange
  · simp [hrange]
  · simp [not_lt.1 hrange]

/-- A sample request, with the classes that PLAYSMP adds to the trace (R113). -/
theorem playSample_eq_classes (id : Word) :
    s.playSample id = { s with
      out := s.out ++ sampleEvents s id.toNat
      voice := sampleVoice s id.toNat
      degrades := s.degrades ++ classes (.playsmp id) s } := by
  rw [State.playSample, sampleEvents, sampleVoice, classes_playsmp]
  split_ifs with hrange
  · rw [emitAudio_eq, BitVec.ofNat_toNat, BitVec.setWidth_eq]
    rfl
  · rw [trigger_eq_triggered _ _ (by decide : 0 < Config.fallbackSamples)]
    have hvoice : triggered (s.degrade .sampleRange) Config.fallbackFreq Config.fallbackSamples =
        triggered s 220 4410 := rfl
    rw [hvoice]
    simp [State.degrade]

/-- Without the audio backend a sample request leaves the voice, fallback or not (R265). -/
theorem sampleVoice_of_no_audio (haudio : s.params.audioReady = false) (id : Nat) : sampleVoice s id = s.voice := by
  simp [sampleVoice, triggered, haudio]

/-- A trigger supersedes what a sample request did to the voice (R214, R221). -/
theorem triggered_playSample (id : Word) (f : Rat) (T : Nat) : triggered (s.playSample id) f T = triggered s f T := by
  rw [triggered, triggered, params_playSample]
  split_ifs with haudio
  · rfl
  · rw [playSample_eq_classes]
    exact sampleVoice_of_no_audio s (by simpa using haudio) _

/-- The sound of a key: its sample part, then its frequency part, which supersedes a fallback tone (R214). -/
theorem keySound_eq (k : Key) :
    s.keySound k = { s with
      out := s.out ++ ((soundSample (s.binding k)).elim [] fun id => sampleEvents s id.toNat)
      voice := (soundFreq (s.binding k)).elim
        ((soundSample (s.binding k)).elim s.voice fun id => sampleVoice s id.toNat)
        fun f => triggered s (shapedFreq (s.binding k) f) (shapedSamples (s.binding k))
      degrades := s.degrades ++ (((soundSample (s.binding k)).elim [] fun id => classes (.playsmp id) s) ++
        (soundFreq (s.binding k)).elim [] fun _ => dropTrace s.params.audioReady) } := by
  have htrigger (t : State) (f : Rat) := trigger_eq_triggered t f (shapedSamples_pos (s.binding k))
  rw [State.keySound, keySamplePart_eq, keyFrequencyPart_eq]
  simp only [State.triggerShaped, shape_binding, htrigger]
  cases soundSample (s.binding k) with
  | none => cases soundFreq (s.binding k) <;> simp
  | some id =>
    simp only [Option.elim_some, triggered_playSample]
    cases soundFreq (s.binding k) <;> simp [playSample_eq_classes]

end

end Sys2Proof.Machine
end

section
/-! The operations that sound: PLAYFREQ, PLAYSMP, SHOWKEY and PLAYCOMB (spec/43_port_ops.md R211 to R214, R221). -/

namespace Sys2Proof.Machine

open Sys2Proof.Stated

/-- A frequency code in Hz, as a rational (R100). -/
theorem freqOf_cast (fc : BitVec 8) : (freqOf fc : Rat) = 220 + 10 * (fc.toNat : Rat) := by
  rw [freqOf]
  push_cast
  rfl

/-- The shaped frequency and duration of PLAYFREQ's codes, multiplied out (R151). -/
theorem shape_codes (fc : BitVec 8) (dc wt : BitVec 4) :
    shape (freqOf fc : Rat) (waveOf wt) (samplesOf dc) =
      (if wt.toNat % 4 = 2 then 242 + 11 * (fc.toNat : Rat)
        else if wt.toNat % 4 = 3 then 198 + 9 * (fc.toNat : Rat) else 220 + 10 * (fc.toNat : Rat),
      if wt.toNat % 4 = 1 then 3528 * (1 + dc.toNat) else 4410 * (1 + dc.toNat)) := by
  have hraised : 11 * (220 + 10 * (fc.toNat : Rat)) / 10 = 242 + 11 * (fc.toNat : Rat) := by ring
  have hlowered : 9 * (220 + 10 * (fc.toNat : Rat)) / 10 = 198 + 9 * (fc.toNat : Rat) := by ring
  have hshort : 4 * (4410 * (1 + dc.toNat)) / 5 = 3528 * (1 + dc.toNat) := by omega
  rw [shape_eq, val_waveOf, samplesOf_eq, freqOf_cast, hraised, hlowered, hshort]

/-- Settles O20: the shaped codes are triggered, after a trace entry for a wave type of 4 or more. -/
theorem playfreqStartsTheShapedVoice : Obligations.PlayfreqStartsTheShapedVoice := by
  refine ⟨fun _ => rfl, fun s fc dc wt => ?_⟩
  have hpos : 0 < if wt.toNat % 4 = 1 then 3528 * (1 + dc.toNat) else 4410 * (1 + dc.toNat) := by
    split_ifs <;> omega
  refine ⟨(if outOfRangeField wt = true then [.waveModeRange] else []) ++ dropTrace s.params.audioReady, none, ?_⟩
  rw [exec, execPlayfreq, degradeIf_eq, State.triggerShaped, shape_codes, trigger_eq_triggered _ _ hpos,
    List.append_assoc]
  rfl

/-- Settles O21: PLAYSMP is a sample request. -/
theorem playsmpPlaysOrFallsBack : Obligations.PlaysmpPlaysOrFallsBack := by
  refine ⟨fun _ => rfl, fun s id => ⟨classes (.playsmp id) s, none, ?_, sampleRange_mem_classes_playsmp s id⟩⟩
  rw [exec, execPlaysmp, playSample_eq_classes]
  rfl

/-- Settles O22: the highlight, which the sound does not look at, then the two parts of the sound. -/
theorem showkeyHighlightsAndSounds : Obligations.ShowkeyHighlightsAndSounds := by
  refine ⟨fun _ => rfl, fun s k x => ?_⟩
  refine ⟨dropTrace s.params.visualReady ++
    (((soundSample (s.binding (lower k))).elim [] fun id => classes (.playsmp id) s) ++
      (soundFreq (s.binding (lower k))).elim [] fun _ => dropTrace s.params.audioReady), none, ?_, ?_⟩
  · rw [exec, execShowkey, keySound_eq, binding_triggerHighlight, triggerHighlight_eq, List.append_assoc s.degrades]
    rfl
  · have hsample : .sampleRange ∈ ((soundSample (s.binding (lower k))).elim [] fun id => classes (.playsmp id) s) ↔
        ∃ id, soundSample (s.binding (lower k)) = some id ∧ s.params.nSamples.toNat ≤ id.toNat := by
      cases soundSample (s.binding (lower k)) <;> simp [sampleRange_mem_classes_playsmp]
    have hfreq : .sampleRange ∉ (soundFreq (s.binding (lower k))).elim [] fun _ => dropTrace s.params.audioReady := by
      cases soundFreq (s.binding (lower k)) <;> simp
    simp [hsample, hfreq]

/-- Settles O29: the trigger of the coded frequency replaces whatever voice the sample request leaves. -/
theorem playcombPlaysBoth : Obligations.PlaycombPlaysBoth := by
  refine ⟨fun _ => rfl, fun s fc sid => ?_⟩
  have hsid : (sid.setWidth 16).toNat = sid.toNat := BitVec.toNat_setWidth_of_le (by decide)
  refine ⟨classes (.playsmp (sid.setWidth 16)) s ++ dropTrace s.params.audioReady, none, ?_, ?_⟩
  · rw [exec, execPlaycomb, trigger_eq_triggered _ _ (by decide : 0 < Config.keyNoteSamples), triggered_playSample,
      freqOf_cast, playSample_eq_classes, hsid, ← List.append_assoc]
    rfl
  · rw [List.mem_append, sampleRange_mem_classes_playsmp, hsid]
    simp

end Sys2Proof.Machine
end

section
/-! The two-phase ports CFGFREQ, CFGSMP and CFGCOL (spec/40_decoder.md R110; spec/43_port_ops.md R215, R217, R218). -/

namespace Sys2Proof.Machine

open Sys2Proof.Stated

/-- The two-phase protocol whole, for a port whose assignment writes one binding and emits events (R110). -/
theorem twoPhase_selects_or_binds (s : State) (w : Word) {assign : State → Key → Word → State} {b : Key → Binding}
    {es : Key → List Event} {tr : Key → List Degrade} (hmisuse : ∀ k, .cursorMisuse ∉ tr k)
    (hassign : ∀ k, assign s k w =
      { s with bind := s.bind.set k.toNat (b k), out := s.out ++ es k, degrades := s.degrades ++ tr k }) :
    ∃ d, s.twoPhase assign w = { s with
      degrades := s.degrades ++ d
      bind := s.cursor.elim s.bind fun k => s.bind.set k.toNat (b k)
      out := s.out ++ s.cursor.elim [] es
      cursor := if s.cursor = none ∧ w.toNat ≤ 0xFF then some (lower (BitVec.ofNat 8 w.toNat)) else none } ∧
    (.cursorMisuse ∈ d ↔ s.cursor = none ∧ 0xFF < w.toNat) := by
  unfold State.twoPhase
  cases hcursor : s.cursor with
  | none =>
    simp only [high_byte_eq_zero, low_byte]
    by_cases hselect : w.toNat ≤ 0xFF
    · exact ⟨[], by simp [hselect, State.setCursor], by simp [hselect]⟩
    · exact ⟨[.cursorMisuse], by simp [hselect, State.degrade, hcursor], by simp [not_le.1 hselect]⟩
  | some k => exact ⟨tr k, by simp [hassign, State.setCursor], by simp [hmisuse]⟩

/-- The same for a port whose assignment emits nothing. -/
theorem twoPhase_selects_or_sets (s : State) (w : Word) {assign : State → Key → Word → State} (b : Key → Binding)
    (hassign : ∀ k, assign s k w = s.setBinding k (b k)) :
    ∃ d, s.twoPhase assign w = { s with
      degrades := s.degrades ++ d
      bind := s.cursor.elim s.bind fun k => s.bind.set k.toNat (b k)
      cursor := if s.cursor = none ∧ w.toNat ≤ 0xFF then some (lower (BitVec.ofNat 8 w.toNat)) else none } ∧
    (.cursorMisuse ∈ d ↔ s.cursor = none ∧ 0xFF < w.toNat) := by
  have hsilent : s.cursor.elim ([] : List Event) (fun _ => []) = [] := by cases s.cursor <;> rfl
  have h := twoPhase_selects_or_binds s w (assign := assign) (b := b) (es := fun _ => []) (tr := fun _ => [])
    (fun _ => List.not_mem_nil) (fun k => by simp [hassign, State.setBinding])
  simpa only [hsilent, List.append_nil] using h

/-- Settles O23: CFGFREQ is the protocol with the frequency as the property. -/
theorem cfgfreqSelectsOrBinds : Obligations.CfgfreqSelectsOrBinds := by
  refine ⟨fun _ => rfl, fun s w => ?_⟩
  obtain ⟨d, heq, hmisuse⟩ := twoPhase_selects_or_sets s w (assign := State.assignFrequency)
    (fun k => { s.binding k with freq := some w }) fun _ => rfl
  refine ⟨d, none, ?_, hmisuse⟩
  rw [exec, execCfgfreq, heq]
  rfl

/-- Settles O24: CFGSMP is the protocol with the sample id as the property. -/
theorem cfgsmpSelectsOrBinds : Obligations.CfgsmpSelectsOrBinds := by
  refine ⟨fun _ => rfl, fun s w => ?_⟩
  obtain ⟨d, heq, hmisuse⟩ := twoPhase_selects_or_sets s w (assign := State.assignSample)
    (fun k => { s.binding k with sample := some w }) fun _ => rfl
  refine ⟨d, none, ?_, hmisuse⟩
  rw [exec, execCfgsmp, heq]
  rfl

/-- The color of a word is the RGB-332 decode of its low byte (R106, R218). -/
theorem rgb_ofNat_toNat (w : Word) :
    rgb (BitVec.ofNat 8 w.toNat) = (36 * (w.toNat / 32 % 8), 36 * (w.toNat / 4 % 8), 85 * (w.toNat % 4)) := by
  rw [rgb_eq, BitVec.toNat_ofNat]
  simp only [Prod.mk.injEq]
  omega

/-- Settles O25: CFGCOL is the protocol with the low byte as the property and its Color event. -/
theorem cfgcolSelectsOrBinds : Obligations.CfgcolSelectsOrBinds := by
  refine ⟨fun _ => rfl, fun s w => ?_⟩
  obtain ⟨d, heq, hmisuse⟩ := twoPhase_selects_or_binds s w
    (assign := fun t k v => t.assignColor k (v.extractLsb' 0 8))
    (b := fun k => { s.binding k with color := some (BitVec.ofNat 8 w.toNat) })
    (es := fun k => toVisual s
      [.color k (36 * (w.toNat / 32 % 8)) (36 * (w.toNat / 4 % 8)) (85 * (w.toNat % 4))])
    (tr := fun _ => dropTrace s.params.visualReady) (fun _ => cursorMisuse_not_mem_dropTrace _)
    (fun k => by rw [low_byte, assignColor_eq, rgb_ofNat_toNat]; rfl)
  refine ⟨d, none, ?_, hmisuse⟩
  rw [exec, execCfgcol, heq]
  rfl

end Sys2Proof.Machine
end

section
/-! The operations that read, list, bind without the cursor, or are no port's own (spec/43_port_ops.md R216, R219, R220,
R222, R223). -/

namespace Sys2Proof.Machine

theorem pendingFrequency_of_bound {s : State} {k : Key} {f : Word} (hk : s.cursor = some k)
    (hf : (s.binding k).freq = some f) : s.pendingFrequency = f := by
  simp [State.pendingFrequency, hk, hf]

/-- With no key pending, or a key that has no frequency, the answer is 0 (R216). -/
theorem pendingFrequency_of_unbound {s : State} (h : ∀ k f, s.cursor = some k → (s.binding k).freq ≠ some f) :
    s.pendingFrequency = 0 := by
  unfold State.pendingFrequency
  cases hcursor : s.cursor with
  | none => rfl
  | some k =>
    have hunset : (s.binding k).freq = none := Option.eq_none_iff_forall_ne_some.2 fun f => h k f hcursor
    simp [hunset]

/-- Settles O26: the answer is the pending frequency, in its two cases. -/
theorem rdfreqAnswersThePendingFrequency : Obligations.RdfreqAnswersThePendingFrequency := by
  have hexec (s : State) : exec .rdfreq s = .next { s with busResult := some s.pendingFrequency } := rfl
  refine ⟨rfl, fun s => ⟨fun k f hk hf => ?_, fun hunbound => ?_⟩⟩
  · rw [hexec, pendingFrequency_of_bound hk hf]
  · rw [hexec, pendingFrequency_of_unbound hunbound]

/-- Settles O27: the answer is a parameter of the run. -/
theorem smpcountAnswersNSamples : Obligations.SmpcountAnswersNSamples := ⟨rfl, fun _ => rfl⟩

/-- Settles O28: the word is not looked at, and no backend is asked. -/
theorem listsmpEmitsOneEvent : Obligations.ListsmpEmitsOneEvent := ⟨fun _ => rfl, fun _ _ => ⟨none, rfl⟩⟩

/-- Settles O30: after a trace entry for a field of 4 or more, one assignment of both fields mod 4. -/
theorem setmodeWritesModeAndWave : Obligations.SetmodeWritesModeAndWave := by
  refine ⟨fun _ => rfl, fun s k m wt =>
    ⟨if (outOfRangeField m || outOfRangeField wt) = true then [.waveModeRange] else [], none, ?_⟩⟩
  rw [exec, execSetmode, degradeIf_eq, modeOf_eq]
  rfl

/-- The write ports are 0x9001 to 0x900A without the read port 0x9007 (R81). -/
theorem range_of_mem_writePorts :
    ∀ p ∈ writePorts, 0x9001 ≤ p.toNat ∧ p.toNat ≤ 0x900A ∧ p.toNat ≠ 0x9007 := by
  simp [writePorts]

/-- Settles O31: the addresses outside the port lists are the UNKNOWN ones, and their operations only trace. -/
theorem unknownAccessIsANoOp : Obligations.UnknownAccessIsANoOp := by
  refine ⟨fun a hgetkey hrdfreq hsmpcount => ?_, fun a w hrange => ?_, fun _ _ => rfl, fun _ _ _ => ⟨none, rfl⟩⟩
  · exact decodeRead_of_not_mem (by simpa [readPorts] using ⟨hgetkey, hrdfreq, hsmpcount⟩)
  · exact decodeWrite_of_not_mem (fun hmem => hrange (range_of_mem_writePorts a hmem)) w

end Sys2Proof.Machine
end

section
/-! Runs of any length (spec/60_exceptions.md R261). -/

namespace Sys2Proof.Machine

/-- Settles O12, by induction on the number of steps: every step ends in a next state, whatever state it starts from. -/
theorem everyRunIsSafe : Obligations.EveryRunIsSafe := by
  intro s n
  induction n generalizing s with
  | zero => exact ⟨s, run_zero s⟩
  | succ n ih =>
    obtain ⟨t, hstep⟩ := step_next s
    rw [run_succ hstep]
    exact ih t

end Sys2Proof.Machine
end

section
/-! Only the two-phase ports write the cursor, and how they leave it (spec/10_state.md R33; spec/40_decoder.md R110;
spec/70_reset_and_hazards.md R301). -/

namespace Sys2Proof.Machine

open Sys2Proof.Stated

section
variable (s : State)

@[simp] theorem cursor_degradeIf (b : Bool) (d : Degrade) : (s.degradeIf b d).cursor = s.cursor := by
  rw [degradeIf_eq]

@[simp] theorem cursor_trigger (f : Rat) (T : Nat) (vol : Rat) : (s.trigger f T vol).cursor = s.cursor := by
  rw [trigger_eq]

@[simp] theorem cursor_triggerShaped (f : Rat) (wt : WaveType) (T : Nat) :
    (s.triggerShaped f wt T).cursor = s.cursor := cursor_trigger ..

@[simp] theorem cursor_playSample (id : Word) : (s.playSample id).cursor = s.cursor := by rw [playSample_eq]

@[simp] theorem cursor_keySound (k : Key) : (s.keySound k).cursor = s.cursor := by rw [keySound_eq]

@[simp] theorem cursor_triggerHighlight (k : Key) (n : Nat) : (s.triggerHighlight k n).cursor = s.cursor := by
  rw [triggerHighlight_eq]

@[simp] theorem cursor_assignMode (k : Key) (m : Mode) (wt : WaveType) :
    (s.assignMode k m wt).cursor = s.cursor := rfl

@[simp] theorem cursor_drawKey : s.drawKey.2.cursor = s.cursor := by rw [drawKey_eq]

theorem binding_assignColor_same (k : Key) (c : BitVec 8) :
    (s.assignColor k c).binding k = { s.binding k with color := some c } := by
  rw [assignColor_eq]
  exact binding_setBinding_same ..

end

variable {s t : State} {i : Instr} {w : Word} {k : Key}

/-- An operation that is none of the three ports leaves the cursor (R33). -/
theorem cursor_of_exec (h : exec i s = .next t) :
    t.cursor = s.cursor ∨ ∃ w, i = .cfgfreq w ∨ i = .cfgsmp w ∨ i = .cfgcol w := by
  cases i with
  | cfgfreq w => exact .inr ⟨w, .inl rfl⟩
  | cfgsmp w => exact .inr ⟨w, .inr (.inl rfl)⟩
  | cfgcol w => exact .inr ⟨w, .inr (.inr rfl)⟩
  | getkey =>
    cases h
    split_ifs <;> simp
  | playfreq | playsmp | showkey | playcomb | setmode => cases h; simp
  | rdfreq | smpcount | listsmp | unknownRd | unknownWr => cases h; exact .inl rfl

theorem twoPhase_of_pending (hk : s.cursor = some k) (assign : State → Key → Word → State) (w : Word) :
    s.twoPhase assign w = (assign s k w).setCursor none := by
  rw [State.twoPhase, hk]

theorem twoPhase_of_misuse (hnone : s.cursor = none) (assign : State → Key → Word → State) (hw : 0xFF < w.toNat) :
    s.twoPhase assign w = s.degrade .cursorMisuse := by
  have hhigh : w.extractLsb' 8 8 ≠ 0 := fun h => absurd ((high_byte_eq_zero w).1 h) (not_le.2 hw)
  rw [State.twoPhase, hnone]
  exact if_neg hhigh

/-- Each port is the protocol with an assignment that binds the word to the port's own property (R215, R217, R218). -/
theorem exec_twoPhasePort (hi : i = .cfgfreq w ∨ i = .cfgsmp w ∨ i = .cfgcol w) :
    ∃ assign : State → Key → Word → State, (∀ s, exec i s = .next (s.twoPhase assign w).acknowledge) ∧
      ∀ s k, boundTo i w ((assign s k w).binding k) := by
  obtain rfl | rfl | rfl := hi
  · refine ⟨State.assignFrequency, fun _ => rfl, fun s k => .inl ⟨rfl, ?_⟩⟩
    rw [State.assignFrequency, binding_setBinding_same]
  · refine ⟨State.assignSample, fun _ => rfl, fun s k => .inr (.inl ⟨rfl, ?_⟩)⟩
    rw [State.assignSample, binding_setBinding_same]
  · refine ⟨fun t k v => t.assignColor k (v.extractLsb' 0 8), fun _ => rfl, fun s k => .inr (.inr ⟨rfl, ?_⟩)⟩
    rw [binding_assignColor_same, low_byte]

/-- A write to a port with a key pending completes the pair: the word is bound and the cursor is cleared (R110). -/
theorem exec_twoPhasePort_of_pending (hi : i = .cfgfreq w ∨ i = .cfgsmp w ∨ i = .cfgcol w) (hk : s.cursor = some k)
    (h : exec i s = .next t) : t.cursor = none ∧ boundTo i w (t.binding k) := by
  obtain ⟨assign, hexec, hbound⟩ := exec_twoPhasePort hi
  rw [hexec, twoPhase_of_pending hk] at h
  cases h
  exact ⟨rfl, hbound s k⟩

/-- A word above 0xFF to a port with no key pending is only recorded (R110, R301). -/
theorem exec_twoPhasePort_of_misuse (hi : i = .cfgfreq w ∨ i = .cfgsmp w ∨ i = .cfgcol w) (hnone : s.cursor = none)
    (hw : 0xFF < w.toNat) (h : exec i s = .next t) :
    t = { s with degrades := s.degrades ++ [.cursorMisuse], busResult := none } := by
  obtain ⟨assign, hexec, -⟩ := exec_twoPhasePort hi
  rw [hexec, twoPhase_of_misuse hnone assign hw] at h
  cases h
  rfl

/-- Settles O38: a word above 0xFF is misuse or completes a pair, and only completing a pair clears a pending key. -/
theorem bigWordClearsTheCursor : Obligations.BigWordClearsTheCursor := by
  refine ⟨fun s t w i hw hi h => ?_, fun s t i k h hk hcleared => ?_⟩
  · refine ⟨?_, fun hnone => ⟨none, exec_twoPhasePort_of_misuse hi hnone hw h⟩,
      fun k hk => (exec_twoPhasePort_of_pending hi hk h).2⟩
    cases hcursor : s.cursor with
    | none =>
      rw [exec_twoPhasePort_of_misuse hi hcursor hw h]
      exact hcursor
    | some k => exact (exec_twoPhasePort_of_pending hi hcursor h).1
  · obtain hkept | ⟨w, hi⟩ := cursor_of_exec h
    · rw [hcleared, hk] at hkept
      cases hkept
    · exact ⟨w, (exec_twoPhasePort_of_pending hi hk h).2⟩

end Sys2Proof.Machine
end

section
/-! The encoder undoes the decoder, the addresses that are no port's own, the pseudo-operations of the script, and the
numbering of a transaction's bits (spec/30_encoding.md R71, R81, R82, R84). -/

namespace Sys2Proof

/-- Settles O1: `decode_encode`, which cuts every packed word back into its fields. -/
theorem decodeEncodeRoundTrip : Obligations.DecodeEncodeRoundTrip := fun _ => decode_encode

theorem encode_decodeRead (a : Word) : encode (decodeRead a) = .rd a := by
  by_cases ha : a ∈ readPorts
  case pos =>
    unfold readPorts at ha
    fin_cases ha <;> rfl
  case neg => rw [decodeRead_of_not_mem ha, encode]

/-- A packed word is joined again from the fields that the decoder cuts it into. -/
theorem encode_decodeWrite (a w : Word) : encode (decodeWrite a w) = .wr a w := by
  by_cases ha : a ∈ writePorts
  case pos =>
    unfold writePorts at ha
    fin_cases ha
    · exact congrArg (Transaction.wr 0x9001) (join_nibbles w)
    · rfl
    · exact congrArg (Transaction.wr 0x9003) (join_bytes w)
    · rfl
    · rfl
    · rfl
    · rfl
    · exact congrArg (Transaction.wr 0x9009) (join_bytes w)
    · exact congrArg (Transaction.wr 0x900A) (join_nibbles w)
  case neg => rw [decodeWrite_of_not_mem ha, encode]

theorem encode_decode (t : Transaction) : encode (decode t) = t := by
  cases t with
  | rd a => exact encode_decodeRead a
  | wr a w => exact encode_decodeWrite a w

theorem wellFormed_decodeRead (a : Word) : (decodeRead a).wellFormed = true := by
  by_cases ha : a ∈ readPorts
  case pos =>
    unfold readPorts at ha
    fin_cases ha <;> rfl
  case neg => simp [decodeRead_of_not_mem ha, Instr.wellFormed, ha]

theorem wellFormed_decodeWrite (a w : Word) : (decodeWrite a w).wellFormed = true := by
  by_cases ha : a ∈ writePorts
  case pos =>
    unfold writePorts at ha
    fin_cases ha <;> rfl
  case neg => simp [decodeWrite_of_not_mem ha, Instr.wellFormed, ha]

theorem wellFormed_decode (t : Transaction) : (decode t).wellFormed = true := by
  cases t with
  | rd a => exact wellFormed_decodeRead a
  | wr a w => exact wellFormed_decodeWrite a w

/-- Settles O2: a port's word is joined again from its fields, and an UNKNOWN operation keeps its whole transaction. -/
theorem encodeDecodeRoundTrip : Obligations.EncodeDecodeRoundTrip := fun t => ⟨wellFormed_decode t, encode_decode t⟩

/-- A read is UNKNOWN exactly outside the read ports: an UNKNOWN of a port would not be well formed (R81). -/
theorem decode_rd_eq_unknownRd_iff (a : Word) : decode (.rd a) = .unknownRd a ↔ a ∉ readPorts := by
  refine ⟨fun h => ?_, decodeRead_of_not_mem⟩
  have hwf := wellFormed_decode (.rd a)
  rw [h] at hwf
  simpa [Instr.wellFormed] using hwf

/-- A write is UNKNOWN exactly outside the write ports (R81). -/
theorem decode_wr_eq_unknownWr_iff (a w : Word) : decode (.wr a w) = .unknownWr a w ↔ a ∉ writePorts := by
  refine ⟨fun h => ?_, fun h => decodeWrite_of_not_mem h w⟩
  have hwf := wellFormed_decode (.wr a w)
  rw [h] at hwf
  simpa [Instr.wellFormed] using hwf

/-- The write ports as a range of addresses with one gap (R81). -/
theorem mem_writePorts_iff (a : Word) :
    a ∈ writePorts ↔ 0x9001 ≤ a.toNat ∧ a.toNat ≤ 0x900A ∧ a.toNat ≠ 0x9007 := by
  simp [writePorts, ← BitVec.toNat_inj]
  omega

/-- Settles O5: the UNKNOWN addresses are those outside the two port lists. -/
theorem unknownIsEveryOtherAddress : Obligations.UnknownIsEveryOtherAddress := by
  refine ⟨fun a => ?_, fun a w => ?_⟩
  · rw [decode_rd_eq_unknownRd_iff]
    simp [readPorts]
  · rw [decode_wr_eq_unknownWr_iff, mem_writePorts_iff]

/-- Settles O6: each number is evaluated by the decoder. -/
theorem writtenOutTransactionsDecode : Obligations.WrittenOutTransactionsDecode :=
  ⟨rfl, rfl, rfl, rfl, rfl, rfl, rfl, rfl⟩

end Sys2Proof

namespace Sys2Proof.Machine

/-- The script's transactions of one packed word are the encoder's (R84). -/
theorem expand_playNote (fc : BitVec 8) (dc wt : BitVec 4) :
    (PseudoOp.playNote fc dc wt).expand = [encode (.playfreq fc dc wt)] := by
  rw [PseudoOp.expand, shift_or_nibbles, encode]

theorem expand_setMode (k : Key) (m wt : BitVec 4) :
    (PseudoOp.setMode k m wt).expand = [encode (.setmode k m wt)] := by
  rw [PseudoOp.expand, shift_or_nibbles, encode]

theorem expand_playComb (fc sid : BitVec 8) : (PseudoOp.playComb fc sid).expand = [encode (.playcomb fc sid)] := by
  rw [PseudoOp.expand, shift_or_bytes, encode]

theorem expand_showKey (k : Key) : (PseudoOp.showKey k).expand = [encode (.showkey k 0)] := by
  have hword : k.setWidth 16 = (0 : BitVec 8) ++ k := by
    apply BitVec.eq_of_toNat_eq
    rw [toNat_append_add, BitVec.toNat_setWidth_of_le (by decide)]
    simp
  rw [PseudoOp.expand, hword, encode]

/-- The color byte that the script builds of its three levels (R84). -/
theorem toNat_color_word (r3 g3 : BitVec 3) (b2 : BitVec 2) :
    ((r3.setWidth 16 <<< 5) ||| (g3.setWidth 16 <<< 2) ||| b2.setWidth 16 : Word).toNat =
      32 * r3.toNat + 4 * g3.toNat + b2.toNat := by
  have hr := r3.isLt
  have hg := g3.isLt
  have hb := b2.isLt
  rw [← shift_or_levels (by omega : g3.toNat ≤ 7) (by omega : b2.toNat ≤ 3)]
  simp only [BitVec.toNat_or, BitVec.toNat_shiftLeft, BitVec.toNat_setWidth, Nat.shiftLeft_eq]
  congr <;> omega

/-- Settles O7: each expansion is the encoding of its operations, which the decoder gives back. -/
theorem pseudoOpsExpandToTheirOperations : Obligations.PseudoOpsExpandToTheirOperations := by
  refine ⟨fun fc dc wt => ?_, fun k => ?_, fun _ _ => rfl, fun _ _ => rfl,
    fun k r3 g3 b2 => ⟨_, rfl, toNat_color_word r3 g3 b2⟩, fun k m wt => ?_, fun fc sid => ?_⟩
  · rw [expand_playNote, List.map_singleton, decode_encode rfl]
  · rw [expand_showKey, List.map_singleton, decode_encode rfl]
  · rw [expand_setMode, List.map_singleton, decode_encode rfl]
  · rw [expand_playComb, List.map_singleton, decode_encode rfl]

/-- A table word is read as the operation of its transaction, or not at all (R82). -/
theorem decode_of_decodeTableWord {nbits w : Nat} {i : Instr} (h : decodeTableWord nbits w = some i) :
    decode (transactionOfBits (w % 2 ^ nbits)) = i := by
  unfold decodeTableWord decodeBits at h
  split_ifs at h
  exact Option.some.inj h

/-- Settles O14: the placed transaction is the next input, and taking it restores the state. -/
theorem fetchWordRunsItsOperation : Obligations.FetchWordRunsItsOperation := by
  intro s nbits w i hi
  have hin : (s.withFetchWord nbits w).inputs = .bus (transactionOfBits (w % 2 ^ nbits)) :: s.inputs := rfl
  rw [step_bus hin, decode_of_decodeTableWord hi]
  rfl

/-- Settles O15: the free choice is the head of the list that holds it alone. -/
theorem emptyInputRunsTheFreeChoice : Obligations.EmptyInputRunsTheFreeChoice := by
  intro s hempty
  have htaken : s.takeInput = (Config.freeInput s.drawn, { s with drawn := s.drawn + 1 }) := by
    rw [State.takeInput, hempty]
  rw [step, htaken, step_cons (i := Config.freeInput s.drawn) (rest := []) rfl, ← hempty]

/-- Settles O44: without the audio backend a SAMPLE step is the identity (log 11). -/
theorem noSampleWithoutAudio : Obligations.NoSampleWithoutAudio := by
  intro s rest hin haudio
  rw [step_cons hin, runInput_sample, sampleStep_eq, if_neg (by simp [haudio])]

/-- The capitals as a range of codes (R103). -/
theorem capital_iff (c : Key) : (0x41 ≤ c ∧ c ≤ 0x5A) ↔ 0x41 ≤ c.toNat ∧ c.toNat ≤ 0x5A := Iff.rfl

/-- Settles O17: the two cases are the two branches of `lower`, and a capital plus 0x20 does not overflow its byte. -/
theorem lowerMapsAsciiLettersOnly : Obligations.LowerMapsAsciiLettersOnly := by
  intro c
  refine ⟨fun hcapital => ?_, fun hother => if_neg (mt (capital_iff c).1 hother)⟩
  rw [lower, if_pos ((capital_iff c).2 hcapital)]
  have hfits : c.toNat + 0x20 < 2 ^ 8 := by omega
  exact Nat.mod_eq_of_lt hfits

end Sys2Proof.Machine
end

section
/-! The block's invariant: it holds at reset, every update keeps it, and so does every step (spec/10_state.md R20 to
R23; spec/40_decoder.md R103). -/

namespace Sys2Proof.Machine

open Sys2Proof.Stated

/-- Settles O9: at reset the voice is silent and every register file holds its unset value at every key. -/
theorem goodAtReset : Obligations.GoodAtReset := fun p =>
  { voice := by constructor <;> simp [State.resetWith, Voice.reset]
    timers := fun k n h => by simp at h
    timer_lower := fun k _ => resetWith_timer p k
    binding_lower := fun k _ => resetWith_binding p k
    cursor_lower := fun k h => by cases h }

/-- A shaped frequency is not negative (R150). -/
theorem shape_fst_nonneg {f : Rat} (hf : 0 ≤ f) (wt : WaveType) (T : Nat) : 0 ≤ (shape f wt T).1 := by
  rw [shape_eq]
  split_ifs <;> linarith

/-- A trigger at VOLUME starts a good voice (R141). -/
theorem good_triggeredVoice {f : Rat} (hf : 0 ≤ f) (T : Nat) :
    (⟨decide (0 < T), f, 0, Config.volume, T, 0⟩ : Voice).Good := by
  constructor <;> simp [hf, Config.volume]

/-- An active voice with samples left is good after one more of them (R142, R144). -/
theorem Voice.Good.advance {v : Voice} (h : v.Good) (hactive : v.active = true) : v.advance.Good where
  elapsed_le_total := h.active_lt hactive
  active_lt hstill := by
    have hleft : v.elapsed + 1 ≠ v.total := of_decide_eq_true hstill
    exact lt_of_le_of_ne (h.active_lt hactive) hleft
  freq_nonneg := h.freq_nonneg
  theta_nonneg := frac_nonneg _
  theta_lt_one := frac_lt_one _
  vol_nonneg := h.vol_nonneg
  vol_le_one := h.vol_le_one

/-- A timer that survives a tick has at least one frame left and no more than before (R185). -/
theorem tickTimer_eq_some {timer : Option Nat} {n : Nat} (h : tickTimer timer = some n) :
    1 ≤ n ∧ ∃ m, timer = some m ∧ n ≤ m := by
  cases timer with
  | none => cases h
  | some m =>
    rw [tickTimer] at h
    split_ifs at h
    cases h
    exact ⟨by omega, m, rfl, by omega⟩

namespace State.Good

variable {s : State}

/-! What the invariant looks at: the voice, the two register files and the cursor. -/

theorem of_eq {t : State} (h : s.Good) (hvoice : t.voice = s.voice) (hbind : t.bind = s.bind) (hhl : t.hl = s.hl)
    (hcursor : t.cursor = s.cursor) : t.Good := by
  have hbinding (k : Key) : t.binding k = s.binding k := by rw [State.binding, hbind, State.binding]
  have htimer (k : Key) : t.timer k = s.timer k := by rw [State.timer, hhl, State.timer]
  exact
    { voice := hvoice ▸ h.voice
      timers := fun k n hk => h.timers k n (htimer k ▸ hk)
      timer_lower := fun k hk => (htimer k).trans (h.timer_lower k hk)
      binding_lower := fun k hk => (hbinding k).trans (h.binding_lower k hk)
      cursor_lower := fun k hk => h.cursor_lower k (hcursor ▸ hk) }

section
variable (h : s.Good)
include h

theorem setVoice {v : Voice} (hv : v.Good) : (s.setVoice v).Good := { h with voice := hv }

theorem setCursor {c : Option Key} (hc : ∀ k, c = some k → upperCase k = false) : (s.setCursor c).Good :=
  { h with cursor_lower := hc }

theorem setBinding {k : Key} (hk : upperCase k = false) (b : Binding) : (s.setBinding k b).Good :=
  { h with
    binding_lower := fun j hj => by
      have hne : j ≠ k := fun heq => by simp [heq, hk] at hj
      rw [binding_setBinding, if_neg hne]
      exact h.binding_lower j hj }

theorem setTimer {k : Key} {n : Nat} (hk : upperCase k = false) (hpos : 1 ≤ n) (hmax : n ≤ Config.hlShow) :
    (s.setTimer k (some n)).Good :=
  { h with
    timers := fun j m hj => by
      rw [timer_setTimer] at hj
      split_ifs at hj
      · cases hj
        exact ⟨hpos, hmax⟩
      · exact h.timers j m hj
    timer_lower := fun j hj => by
      have hne : j ≠ k := fun heq => by simp [heq, hk] at hj
      rw [timer_setTimer, if_neg hne]
      exact h.timer_lower j hj }

/-! The shared operations. -/

theorem answer (w : Word) : (s.answer w).Good := h.of_eq rfl rfl rfl rfl
theorem acknowledge : s.acknowledge.Good := h.of_eq rfl rfl rfl rfl
theorem emit (e : Event) : (s.emit e).Good := h.of_eq rfl rfl rfl rfl
theorem degrade (d : Degrade) : (s.degrade d).Good := h.of_eq rfl rfl rfl rfl

theorem degradeIf (b : Bool) (d : Degrade) : (s.degradeIf b d).Good := by
  rw [degradeIf_eq]
  exact h.of_eq rfl rfl rfl rfl

theorem emitAudio (e : Event) : (s.emitAudio e).Good := by
  rw [emitAudio_eq]
  exact h.of_eq rfl rfl rfl rfl

theorem emitVisual (e : Event) : (s.emitVisual e).Good := by
  rw [emitVisual_eq]
  exact h.of_eq rfl rfl rfl rfl

theorem drawKey : s.drawKey.2.Good := by
  rw [drawKey_eq]
  exact h.of_eq rfl rfl rfl rfl

theorem takeInput : s.takeInput.2.Good := by
  rw [takeInput_eq]
  exact h.of_eq rfl rfl rfl rfl

theorem trigger {f : Rat} (hf : 0 ≤ f) (T : Nat) : (s.trigger f T Config.volume).Good := by
  unfold State.trigger
  split_ifs
  · exact h.setVoice (good_triggeredVoice hf T)
  · exact h.degrade _

theorem triggerShaped {f : Rat} (hf : 0 ≤ f) (wt : WaveType) (T : Nat) : (s.triggerShaped f wt T).Good :=
  h.trigger (shape_fst_nonneg hf wt T) _

theorem playSample (id : Word) : (s.playSample id).Good := by
  unfold State.playSample
  split_ifs
  · exact h.emitAudio _
  · exact (h.degrade _).trigger (by norm_num [Config.fallbackFreq]) _

theorem keySound (k : Key) : (s.keySound k).Good := by
  have hsample : (s.keySamplePart (s.binding k)).Good := by
    rw [keySamplePart_eq]
    cases soundSample (s.binding k) with
    | none => exact h
    | some id => exact h.playSample id
  rw [State.keySound, keyFrequencyPart_eq]
  cases soundFreq (s.binding k) with
  | none => exact hsample
  | some f => exact hsample.triggerShaped (Nat.cast_nonneg _) _ _

theorem triggerHighlight (k : Key) {n : Nat} (hpos : 1 ≤ n) (hmax : n ≤ Config.hlShow) :
    (s.triggerHighlight (lower k) n).Good := (h.setTimer (upperCase_lower k) hpos hmax).emitVisual _

/-- The protocol selects lower-cased keys only, so that its assignment writes to a lower-cased key (R103, R110). -/
theorem twoPhase {assign : State → Key → Word → State}
    (hassign : ∀ k v, upperCase k = false → (assign s k v).Good) (w : Word) : (s.twoPhase assign w).Good := by
  unfold State.twoPhase
  split
  · split_ifs
    · refine h.setCursor fun k hk => ?_
      cases hk
      exact upperCase_lower _
    · exact h.degrade _
  · next k hcursor => exact (hassign k w (h.cursor_lower k hcursor)).setCursor fun _ hk => by cases hk

/-! The steps of the three agents. -/

theorem exec {i : Instr} {t : State} (ht : Machine.exec i s = .next t) : t.Good := by
  cases i with
  | getkey =>
    cases ht
    split_ifs
    · exact h.drawKey.answer 0
    · exact (h.drawKey.triggerHighlight _ (by decide) (by decide)).answer _
  | playfreq f d w => cases ht; exact ((h.degradeIf ..).triggerShaped (Nat.cast_nonneg _) ..).acknowledge
  | playsmp id => cases ht; exact (h.playSample id).acknowledge
  | showkey k x => cases ht; exact ((h.triggerHighlight k (by decide) le_rfl).keySound _).acknowledge
  | cfgfreq w => cases ht; exact (h.twoPhase (fun _ _ hk => h.setBinding hk _) w).acknowledge
  | cfgsmp w => cases ht; exact (h.twoPhase (fun _ _ hk => h.setBinding hk _) w).acknowledge
  | cfgcol w => cases ht; exact (h.twoPhase (fun _ _ hk => (h.setBinding hk _).emitVisual _) w).acknowledge
  | listsmp w => cases ht; exact (h.emit _).acknowledge
  | playcomb f id => cases ht; exact ((h.playSample _).trigger (Nat.cast_nonneg _) _).acknowledge
  | setmode k m w => cases ht; exact ((h.degradeIf ..).setBinding (upperCase_lower k) _).acknowledge
  | unknownRd a => cases ht; exact (h.degrade _).answer 0
  | unknownWr a w => cases ht; exact (h.degrade _).acknowledge
  | rdfreq | smpcount => cases ht; exact h.answer _

theorem sampleStep : s.sampleStep.Good := by
  unfold State.sampleStep
  split_ifs with _ hactive
  · exact (h.emit _).setVoice (h.voice.advance hactive)
  · exact h.emit _
  · exact h

theorem frameStep : s.frameStep.Good where
  voice := by rw [voice_frameStep]; exact h.voice
  timers k n hk := by
    rw [timer_frameStep] at hk
    obtain ⟨hpos, m, hm, hle⟩ := tickTimer_eq_some hk
    exact ⟨hpos, hle.trans (h.timers k m hm).2⟩
  timer_lower k hk := by rw [timer_frameStep, h.timer_lower k hk, tickTimer]
  binding_lower k hk := by rw [frameStep_eq]; exact h.binding_lower k hk
  cursor_lower k hk := by rw [frameStep_eq] at hk; exact h.cursor_lower k hk

theorem runInput {i : Input} {t : State} (ht : Machine.runInput i s = .next t) : t.Good := by
  cases i with
  | bus tr => exact h.exec ht
  | sample => cases ht; exact h.sampleStep
  | frame => cases ht; exact h.frameStep

end

end State.Good

/-- Settles O10: taking the next input and running it both keep the invariant. -/
theorem stepKeepsGood : Obligations.StepKeepsGood := fun _ _ hgood h => hgood.takeInput.runInput h

end Sys2Proof.Machine
end

section
/-! GETKEY whole, and what every bus operation answers, traces and writes (spec/10_state.md R33; spec/30_encoding.md
R70; spec/43_port_ops.md R210; spec/60_exceptions.md R260). -/

namespace Sys2Proof.Machine

open Sys2Proof.Stated

/-- GETKEY's next state, with the classes that it adds to the trace (R210). -/
theorem exec_getkey_eq (s : State) : exec .getkey s = .next
    { s with
      keyAnswers := s.keyAnswers.tail
      drawn := if s.keyAnswers = [] then s.drawn + 1 else s.drawn
      degrades := s.degrades ++ classes .getkey s
      busResult := some (BitVec.ofNat 16 (drawn s).toNat)
      hl := if drawn s = 0 then s.hl else s.hl.set (lower (drawn s)).toNat (some 30)
      out := s.out ++ if drawn s = 0 then [] else toVisual s [.highlight (lower (drawn s)) true] } := by
  rw [exec, execGetkey, show s.drawKey.1 = drawn s from drawKey_fst s, classes]
  by_cases hnone : drawn s = 0
  · simp only [hnone, if_true, List.append_nil, drawKey_eq]
    rfl
  · simp only [hnone, if_false, triggerHighlight_eq, key_setWidth, drawKey_eq]
    rfl

/-- Settles O19: the two draws are the two branches of GETKEY. -/
theorem getkeyAnswersAndHighlights : Obligations.GetkeyAnswersAndHighlights :=
  ⟨rfl, fun s => ⟨classes .getkey s, exec_getkey_eq s⟩⟩

/-- Every meaning ends by answering a word or by acknowledging, as its transaction is a read or a write (R70). -/
theorem busResult_isSome_of_exec {i : Instr} {s t : State} (h : exec i s = .next t) :
    t.busResult.isSome = true ↔ ∃ a, encode i = .rd a := by
  cases i with
  | getkey => cases h; split_ifs <;> simp [encode]
  | rdfreq | smpcount | unknownRd => cases h; simp [encode]
  | playfreq | playsmp | showkey | playcomb | setmode => cases h; simp [encode]
  | cfgfreq | cfgsmp | cfgcol | listsmp | unknownWr => cases h; simp [encode]

/-- Settles O33: a decoded operation encodes to its own transaction. -/
theorem readsAnswerAndWritesDoNot : Obligations.ReadsAnswerAndWritesDoNot := by
  intro x s t h
  rw [busResult_isSome_of_exec h, encode_decode]

/-- The two-phase protocol records a misuse, or what its completing assignment records (R110). -/
theorem degrades_twoPhase (s : State) (w : Word) {assign : State → Key → Word → State} {tr : List Degrade}
    (hassign : ∀ k, (assign s k w).degrades = s.degrades ++ tr) :
    (s.twoPhase assign w).degrades =
      s.degrades ++ if s.cursor = none then if 0xFF < w.toNat then [.cursorMisuse] else [] else tr := by
  unfold State.twoPhase
  cases s.cursor with
  | none =>
    dsimp only
    simp only [high_byte_eq_zero, ← not_lt (a := 0xFF), ite_not]
    split_ifs <;> simp
  | some k => simpa using hassign k

/-- The trace of an operation, read off its whole next state (R260; log 8). -/
theorem degrades_of_exec {i : Instr} {s t : State} (h : exec i s = .next t) :
    t.degrades = s.degrades ++ classes i s := by
  cases i with
  | getkey => cases (exec_getkey_eq s).symm.trans h; rfl
  | playfreq f d w =>
    cases h
    rw [degradeIf_eq, State.triggerShaped, trigger_eq]
    simp [classes, outOfRangeField]
  | playsmp id => cases h; rw [playSample_eq_classes]; rfl
  | showkey k x =>
    cases h
    rw [keySound_eq, binding_triggerHighlight, triggerHighlight_eq]
    simp [classes, dropTrace]
  | cfgfreq w => cases h; exact degrades_twoPhase s w fun _ => (List.append_nil _).symm
  | cfgsmp w => cases h; exact degrades_twoPhase s w fun _ => (List.append_nil _).symm
  | cfgcol w => cases h; exact degrades_twoPhase s w fun k => by rw [assignColor_eq]
  | playcomb f id =>
    cases h
    have hsid : (id.setWidth 16).toNat = id.toNat := BitVec.toNat_setWidth_of_le (by decide)
    rw [trigger_eq, playSample_eq_classes, classes_playsmp, hsid]
    exact List.append_assoc ..
  | setmode k m w =>
    cases h
    rw [degradeIf_eq]
    simp [classes, outOfRangeField, State.assignMode]
  | unknownRd | unknownWr => cases h; rfl
  | rdfreq | smpcount | listsmp => cases h; exact (List.append_nil _).symm

/-- Settles O32: each shared operation's trace is known, and an operation's is theirs in turn. -/
theorem eachOperationTracesItsClasses : Obligations.EachOperationTracesItsClasses := fun _ _ _ => degrades_of_exec

/-- An operation that calls for a trigger is in the voice's column of the access matrix (R33). -/
theorem mnemonic_of_triggers {i : Instr} {s : State} (h : Triggers i s) :
    i.mnemonic ∈ ["PLAYFREQ", "PLAYSMP", "SHOWKEY", "PLAYCOMB"] := by
  cases i with
  | playfreq | playsmp | showkey | playcomb => simp [Instr.mnemonic]
  | getkey | cfgfreq | rdfreq | cfgsmp | cfgcol | smpcount | listsmp | setmode | unknownRd | unknownWr => cases h

/-- The columns of the two register files, read off each operation's whole next state (R33). -/
theorem bind_and_hl_of_exec {i : Instr} {s t : State} (h : exec i s = .next t) :
    (i.mnemonic ∉ ["CFGFREQ", "CFGSMP", "CFGCOL", "SETMODE"] → t.bind = s.bind) ∧
    (i.mnemonic ∉ ["GETKEY", "SHOWKEY"] → t.hl = s.hl) := by
  cases i with
  | getkey =>
    cases (exec_getkey_eq s).symm.trans h
    exact ⟨fun _ => rfl, fun hno => absurd (by simp [Instr.mnemonic]) hno⟩
  | showkey k x =>
    obtain ⟨_, _, heq, -⟩ := showkeyHighlightsAndSounds.2 s k x
    cases heq.symm.trans h
    exact ⟨fun _ => rfl, fun hno => absurd (by simp [Instr.mnemonic]) hno⟩
  | playfreq f d w =>
    obtain ⟨_, _, heq⟩ := playfreqStartsTheShapedVoice.2 s f d w
    cases heq.symm.trans h
    exact ⟨fun _ => rfl, fun _ => rfl⟩
  | playsmp id =>
    obtain ⟨_, _, heq, -⟩ := playsmpPlaysOrFallsBack.2 s id
    cases heq.symm.trans h
    exact ⟨fun _ => rfl, fun _ => rfl⟩
  | playcomb f id =>
    obtain ⟨_, _, heq, -⟩ := playcombPlaysBoth.2 s f id
    cases heq.symm.trans h
    exact ⟨fun _ => rfl, fun _ => rfl⟩
  | cfgfreq w =>
    obtain ⟨_, _, heq, -⟩ := cfgfreqSelectsOrBinds.2 s w
    cases heq.symm.trans h
    exact ⟨fun hno => absurd (by simp [Instr.mnemonic]) hno, fun _ => rfl⟩
  | cfgsmp w =>
    obtain ⟨_, _, heq, -⟩ := cfgsmpSelectsOrBinds.2 s w
    cases heq.symm.trans h
    exact ⟨fun hno => absurd (by simp [Instr.mnemonic]) hno, fun _ => rfl⟩
  | cfgcol w =>
    obtain ⟨_, _, heq, -⟩ := cfgcolSelectsOrBinds.2 s w
    cases heq.symm.trans h
    exact ⟨fun hno => absurd (by simp [Instr.mnemonic]) hno, fun _ => rfl⟩
  | setmode k m w =>
    obtain ⟨_, _, heq⟩ := setmodeWritesModeAndWave.2 s k m w
    cases heq.symm.trans h
    exact ⟨fun hno => absurd (by simp [Instr.mnemonic]) hno, fun _ => rfl⟩
  | rdfreq | smpcount | listsmp | unknownRd | unknownWr => cases h; exact ⟨fun _ => rfl, fun _ => rfl⟩

/-- The cursor's column of the access matrix (R33). -/
theorem cursor_of_exec_of_not_port {i : Instr} {s t : State} (h : exec i s = .next t)
    (hno : i.mnemonic ∉ ["CFGFREQ", "CFGSMP", "CFGCOL"]) : t.cursor = s.cursor := by
  obtain hkept | ⟨w, rfl | rfl | rfl⟩ := cursor_of_exec h
  · exact hkept
  all_goals exact absurd (by simp [Instr.mnemonic]) hno

/-- Settles O34: the columns of the operations, one by one, and the two clock steps whole. -/
theorem onlyTheListedStepsWrite : Obligations.OnlyTheListedStepsWrite := by
  refine ⟨fun i s t h => ⟨fun hno => ?_, (bind_and_hl_of_exec h).1, (bind_and_hl_of_exec h).2,
    cursor_of_exec_of_not_port h⟩, fun s => ?_⟩
  · exact voice_of_exec (mt mnemonic_of_triggers hno) h
  · rw [sampleStep_eq, frameStep_eq]
    split_ifs <;> exact ⟨rfl, rfl, rfl, rfl, rfl, rfl⟩

end Sys2Proof.Machine
end

section
/-! Side effects: of reads, of ignored bits, of repetition (spec/20_memory.md R59, R60; spec/30_encoding.md R81). -/

namespace Sys2Proof.Machine

open Sys2Proof.Stated

/-- Settles O36: every read but GETKEY answers a word and at most adds to the trace. -/
theorem otherReadsHaveNoSideEffect : Obligations.OtherReadsHaveNoSideEffect := by
  intro s a ha
  rw [decode, decodeRead, if_neg ha]
  split_ifs <;> exact ⟨_, _, rfl⟩

theorem waveOf_eq_of_mod_eq {x y : BitVec 4} (h : x.toNat % 4 = y.toNat % 4) : waveOf x = waveOf y :=
  Fin.ext (by rw [val_waveOf, val_waveOf, h])

theorem modeOf_eq_of_mod_eq {m n : BitVec 4} (h : m.toNat % 4 = n.toNat % 4) : modeOf m = modeOf n := by
  rw [modeOf_eq, modeOf_eq, h]

theorem low_byte_eq_of_mod_eq {x y : Word} (h : x.toNat % 256 = y.toNat % 256) :
    x.extractLsb' 0 8 = y.extractLsb' 0 8 :=
  BitVec.eq_of_toNat_eq (by rw [toNat_lowByte, toNat_lowByte, h])

/-- A color value is cut to its low byte before it is bound (R218). -/
theorem cfgcol_eq_of_low_byte_eq {s : State} {k : Key} {x y : Word} (hk : s.cursor = some k)
    (h : x.extractLsb' 0 8 = y.extractLsb' 0 8) : exec (.cfgcol x) s = exec (.cfgcol y) s := by
  simp only [exec, execCfgcol, twoPhase_of_pending hk, h]

/-- PLAYFREQ but for its trace depends on its wave type's residue only (R102, R211). -/
theorem exec_playfreq_eq (fc : BitVec 8) (dc wt : BitVec 4) (s : State) : exec (.playfreq fc dc wt) s = .next
    { (s.triggerShaped (freqOf fc : Rat) (waveOf wt) (samplesOf dc)).acknowledge with
      degrades := s.degrades ++ classes (.playfreq fc dc wt) s } := by
  rw [← degrades_of_exec (i := .playfreq fc dc wt) (s := s) rfl, exec, execPlayfreq, degradeIf_eq,
    State.triggerShaped, State.triggerShaped, trigger_eq, trigger_eq]
  rfl

/-- SETMODE but for its trace depends on its fields' residues only (R102, R105, R222). -/
theorem exec_setmode_eq (k : Key) (m wt : BitVec 4) (s : State) : exec (.setmode k m wt) s = .next
    { (s.assignMode (lower k) (modeOf m) (waveOf wt)).acknowledge with
      degrades := s.degrades ++ classes (.setmode k m wt) s } := by
  rw [← degrades_of_exec (i := .setmode k m wt) (s := s) rfl, exec, execSetmode, degradeIf_eq]
  rfl

theorem playfreq_eq_of_wave_eq {s t : State} {fc : BitVec 8} {dc x y : BitVec 4} (h : waveOf x = waveOf y)
    (ht : exec (.playfreq fc dc x) s = .next t) :
    ∃ d, exec (.playfreq fc dc y) s = .next { t with degrades := d } := by
  rw [exec_playfreq_eq] at ht ⊢
  cases ht
  exact ⟨_, by rw [h]⟩

theorem setmode_eq_of_fields_eq {s t : State} {k : Key} {m n x y : BitVec 4} (hm : modeOf m = modeOf n)
    (hw : waveOf x = waveOf y) (ht : exec (.setmode k m x) s = .next t) :
    ∃ d, exec (.setmode k n y) s = .next { t with degrades := d } := by
  rw [exec_setmode_eq] at ht ⊢
  cases ht
  exact ⟨_, by rw [hm, hw]⟩

/-- Settles O37: three meanings do not name the ignored bits, and the other three cut them off first. -/
theorem ignoredBitsHaveNoEffect : Obligations.IgnoredBitsHaveNoEffect :=
  ⟨fun _ _ _ _ => rfl, fun _ _ _ => rfl, fun _ _ _ _ => rfl,
    fun _ _ _ _ hk h => cfgcol_eq_of_low_byte_eq hk (low_byte_eq_of_mod_eq h),
    fun _ _ _ _ _ _ h ht => playfreq_eq_of_wave_eq (waveOf_eq_of_mod_eq h) ht,
    fun _ _ _ _ _ _ _ hm hw ht => setmode_eq_of_fields_eq (modeOf_eq_of_mod_eq hm) (waveOf_eq_of_mod_eq hw) ht⟩

theorem setBinding_binding (s : State) (k : Key) : s.setBinding k (s.binding k) = s := by
  rw [State.setBinding, State.binding, Vector.set_getElem_self]

/-- A mode and wave type that stand in the key's binding are assigned without effect (R180). -/
theorem assignMode_of_bound {s : State} {k : Key} {m : Mode} {wt : WaveType} (hm : (s.binding k).mode = some m)
    (hw : (s.binding k).wave = some wt) : s.assignMode k m wt = s := by
  rw [State.assignMode, ← hm, ← hw]
  exact setBinding_binding s k

/-- After a SETMODE its mode and wave type stand in the key's binding (R222). -/
theorem binding_of_setmode {s t : State} {k : Key} {m w : BitVec 4} (h : exec (.setmode k m w) s = .next t) :
    (t.binding (lower k)).mode = some (modeOf m) ∧ (t.binding (lower k)).wave = some (waveOf w) := by
  rw [exec_setmode_eq] at h
  cases h
  have hbinding := binding_setBinding_same s (lower k)
    { s.binding (lower k) with mode := some (modeOf m), wave := some (waveOf w) }
  exact ⟨congrArg Binding.mode hbinding, congrArg Binding.wave hbinding⟩

/-- Settles O40: a SETMODE finds its own fields bound, and an UNKNOWN access only answers and traces. -/
theorem repeatedSetmodeAndUnknownChangeNothing : Obligations.RepeatedSetmodeAndUnknownChangeNothing := by
  intro s t u i hi ht hu
  cases i with
  | setmode k m w =>
    obtain ⟨hm, hw⟩ := binding_of_setmode ht
    have hresult : t.busResult = none := by cases ht; rfl
    rw [exec_setmode_eq, assignMode_of_bound hm hw] at hu
    cases hu
    rw [State.acknowledge, ← hresult]
  | unknownRd | unknownWr => cases ht; cases hu; rfl
  | getkey | playfreq | playsmp | showkey | cfgfreq | rdfreq | cfgsmp | cfgcol | smpcount | listsmp | playcomb =>
    simp [Instr.mnemonic] at hi

end Sys2Proof.Machine
end

section
/-! The two-phase protocol over two transactions: RDFREQ after a write, and SETFREQ (spec/40_decoder.md R110;
spec/30_encoding.md R84; spec/70_reset_and_hazards.md R306). -/

namespace Sys2Proof.Machine

variable {s t : State} {i : Instr} {w : Word}

theorem twoPhase_of_select (hnone : s.cursor = none) (assign : State → Key → Word → State)
    (hw : w.toNat ≤ 0xFF) :
    s.twoPhase assign w = s.setCursor (some (lower (BitVec.ofNat 8 w.toNat))) := by
  rw [State.twoPhase, hnone, ← low_byte]
  exact if_pos ((high_byte_eq_zero w).2 hw)

/-- A word up to 0xFF to a port with no key pending only selects its key (R110). -/
theorem exec_twoPhasePort_of_select (hi : i = .cfgfreq w ∨ i = .cfgsmp w ∨ i = .cfgcol w) (hnone : s.cursor = none)
    (hw : w.toNat ≤ 0xFF) :
    exec i s = .next { s with cursor := some (lower (BitVec.ofNat 8 w.toNat)), busResult := none } := by
  obtain ⟨assign, hexec, -⟩ := exec_twoPhasePort hi
  rw [hexec, twoPhase_of_select hnone assign hw]
  rfl

theorem exec_rdfreq (s : State) : exec .rdfreq s = .next { s with busResult := some s.pendingFrequency } := rfl

/-- Settles O39: a completing write leaves no key pending, and a select leaves the bindings. -/
theorem rdfreqAfterATwoPhaseWrite : Obligations.RdfreqAfterATwoPhaseWrite := by
  intro s t w i hi h
  refine ⟨fun hpending => ?_, fun hnone hw => ?_⟩
  · obtain ⟨k, hk⟩ := Option.ne_none_iff_exists'.1 hpending
    have hcleared := (exec_twoPhasePort_of_pending hi hk h).1
    rw [exec_rdfreq, State.pendingFrequency, hcleared]
  · cases (exec_twoPhasePort_of_select hi hnone hw).symm.trans h
    rfl

/-- The select word of a key is below 0x100 and names that key (R84). -/
theorem toNat_select_word (k : Key) : (k.setWidth 16 : Word).toNat = k.toNat := BitVec.toNat_setWidth_of_le (by decide)

/-- The first transaction of SETFREQ selects the lower-cased key (R84). -/
theorem exec_cfgfreq_select (hnone : s.cursor = none) (k : Key) :
    exec (.cfgfreq (k.setWidth 16)) s = .next { s with cursor := some (lower k), busResult := none } := by
  rw [exec_twoPhasePort_of_select (.inl rfl) hnone, toNat_select_word, BitVec.ofNat_toNat, BitVec.setWidth_eq]
  rw [toNat_select_word]
  exact Nat.le_of_lt_succ k.isLt

/-- The second transaction of SETFREQ binds the frequency and clears the cursor (R84). -/
theorem exec_cfgfreq_of_pending {k : Key} (hk : s.cursor = some k) (hz : Word) :
    exec (.cfgfreq hz) s = .next ((s.assignFrequency k hz).setCursor none).acknowledge := by
  rw [exec, execCfgfreq, twoPhase_of_pending hk]

/-- Settles O41: a select step, then a completing step. -/
theorem setFreqBindsTheKey : Obligations.SetFreqBindsTheKey := by
  intro s k hz rest hnone hin
  let selected : State := { s with inputs := .bus (.wr 0x9004 hz) :: rest, cursor := some (lower k), busResult := none }
  let bound : State := ({ selected with inputs := rest, cursor := none } : State).assignFrequency (lower k) hz
  have hselect : step s = .next selected := by
    rw [step_bus hin]
    exact exec_cfgfreq_select (s := { s with inputs := .bus (.wr 0x9004 hz) :: rest }) hnone k
  have hbind : step selected = .next bound := by
    rw [step_bus rfl]
    exact exec_cfgfreq_of_pending rfl hz
  refine ⟨bound, by rw [run_succ hselect, run_succ hbind, run_zero], rfl, rfl, rfl, rfl, rfl, ?_, fun k' hk' => ?_⟩
  · exact congrArg Binding.freq (binding_setBinding_same ..)
  · exact (binding_setBinding ..).trans (if_neg hk')

end Sys2Proof.Machine
end

section
/-! The output stream, and SAMPLE steps that emit exactly 0 (spec/10_state.md R30; spec/41_oscillator.md R144, R147,
R152). -/

namespace Sys2Proof.Machine

open Sys2Proof.Stated

theorem out_sampleStep (s : State) : ∃ es, s.sampleStep.out = s.out ++ es := by
  rw [sampleStep_eq]
  split_ifs
  · exact ⟨_, rfl⟩
  · exact ⟨_, rfl⟩
  · exact ⟨[], (List.append_nil _).symm⟩

theorem out_of_runInput {i : Input} {s t : State} (h : runInput i s = .next t) : ∃ es, t.out = s.out ++ es := by
  cases i with
  | bus tr =>
    obtain ⟨es, hes, -⟩ := (silent_of_exec h).out
    exact ⟨es, hes⟩
  | sample => cases h; exact out_sampleStep s
  | frame => cases h; exact ⟨_, out_frameStep s⟩

/-- Settles O42: taking the next input emits nothing, and running it appends. -/
theorem outputStreamOnlyGrows : Obligations.OutputStreamOnlyGrows := by
  intro s t h
  have hout : s.takeInput.2.out = s.out := by rw [takeInput_eq]
  exact hout ▸ out_of_runInput h

/-- SIN is 0 at the phases 0 and 1/2, whatever the gain (R149). -/
theorem ofSine_of_half_turn {theta : Rat} (h : theta = 0 ∨ theta = 1 / 2) (gain : Rat) :
    AudioValue.ofSine theta gain = .exact 0 := if_pos (.inr h)

/-- One sample of a voice below the sample rate is less than a turn (R142). -/
theorem phase_one {f : Rat} (h0 : 0 ≤ f) (h1 : f < 44100) : phase f 1 = f / 44100 := by
  have hturn : phase f 1 = frac (f / 44100) := by simp [phase, frac]
  rw [hturn, frac_eq_self (by positivity) (by linarith)]

/-- The first SAMPLE step of a voice of at least two samples emits 0 and starts its phase (R147). -/
theorem sampleStep_of_just_triggered {s : State} {f vol : Rat} {T : Nat} (haudio : s.params.audioReady = true)
    (hvoice : s.voice = ⟨true, f, 0, vol, T, 0⟩) (h0 : 0 ≤ f) (h1 : f < 44100) (hT : 1 < T) :
    s.sampleStep = { s with voice := ⟨true, f, f / 44100, vol, T, 1⟩, out := s.out ++ [.audioOut (.exact 0)] } := by
  have hpos : 0 < T := by omega
  have hvalue : renderedValue f vol T 0 = .exact 0 := by
    rw [renderedValue, if_pos hpos, renderedVoice_zero f vol hpos]
    exact ofSine_of_half_turn (.inl rfl) _
  have hnext : renderedVoice f vol T 1 = ⟨true, f, f / 44100, vol, T, 1⟩ := by
    rw [renderedVoice, min_eq_right hT.le, phase_one h0 h1, decide_eq_true hT]
  rw [sampleStep_renderedVoice haudio (hvoice.trans (renderedVoice_zero f vol hpos).symm), hvalue, hnext]

/-- A SAMPLE step after a step that triggered a voice renders its first sample (R147). -/
theorem run_two_of_triggered {s t : State} {rest : List Input} {f : Rat} {T : Nat} (h : step s = .next t)
    (hin : t.inputs = .sample :: rest) (haudio : t.params.audioReady = true)
    (hvoice : t.voice = ⟨true, f, 0, 1, T, 0⟩) (h0 : 0 ≤ f) (h1 : f < 44100) (hT : 1 < T) :
    Sys2Proof.core.run 2 s = .next { t with
      inputs := rest, voice := ⟨true, f, f / 44100, 1, T, 1⟩, out := t.out ++ [.audioOut (.exact 0)] } := by
  have hsample : step t = .next _ := step_cons hin
  rw [run_succ h, run_succ hsample, run_zero,
    sampleStep_of_just_triggered (s := { t with inputs := rest }) haudio hvoice h0 h1 hT]

/-- PLAYFREQ's frequencies go from 9/10 of the lowest code to 11/10 of the highest (R100, R151). -/
theorem shape_codes_fst_bounds (fc : BitVec 8) (dc wt : BitVec 4) :
    198 ≤ (shape (freqOf fc : Rat) (waveOf wt) (samplesOf dc)).1 ∧
      (shape (freqOf fc : Rat) (waveOf wt) (samplesOf dc)).1 ≤ 3047 := by
  have hcode0 : (0 : Rat) ≤ fc.toNat := Nat.cast_nonneg _
  have hcode1 : (fc.toNat : Rat) ≤ 255 := by exact_mod_cast Nat.le_of_lt_succ fc.isLt
  rw [shape_codes]
  constructor <;> split_ifs <;> linarith

theorem one_lt_shape_codes_snd (fc : BitVec 8) (dc wt : BitVec 4) :
    1 < (shape (freqOf fc : Rat) (waveOf wt) (samplesOf dc)).2 := by
  rw [shape_codes]
  split_ifs <;> omega

/-- Settles O48: PLAYFREQ starts a voice of 198 to 3047 Hz and of more than one sample, whose first is rendered. -/
theorem sampleAfterTriggerRendersTheNewVoice : Obligations.SampleAfterTriggerRendersTheNewVoice := by
  intro s fc dc wt rest haudio hin
  obtain ⟨d, r, hplay⟩ := playfreqStartsTheShapedVoice.2 { s with inputs := .sample :: rest } fc dc wt
  rw [← decode_encode (i := .playfreq fc dc wt) rfl, ← step_bus hin] at hplay
  have hT := one_lt_shape_codes_snd fc dc wt
  obtain ⟨hlow, hhigh⟩ := shape_codes_fst_bounds fc dc wt
  rw [shape_codes] at hT hlow hhigh
  have hrun := run_two_of_triggered hplay rfl haudio (if_pos haudio) (by linarith) (by linarith) hT
  exact ⟨_, hrun, rfl, rfl, rfl, rfl, _, rfl, hlow, hhigh, rfl⟩

/-- At half the sample rate the phase moves by half a turn (R152). -/
theorem nextTheta_half_rate {theta : Rat} (h : theta = 0 ∨ theta = 1 / 2) :
    nextTheta theta 22050 = 0 ∨ nextTheta theta 22050 = 1 / 2 := by
  have hturn : nextTheta theta 22050 = frac (theta + 1 / 2) := by norm_num [nextTheta, Config.sampleRate]
  rw [hturn]
  obtain rfl | rfl := h
  · rw [zero_add]
    exact .inr (frac_eq_self (by norm_num) (by norm_num))
  · have hwhole : (1 / 2 + 1 / 2 : Rat) = 0 + ((1 : Int) : Rat) := by norm_num
    rw [hwhole, frac_add_int]
    exact .inl (frac_eq_self le_rfl one_pos)

/-- Settles O50: both phases are zeros of SIN, and the next phase is the other one. -/
theorem halfRateVoiceIsSilent : Obligations.HalfRateVoiceIsSilent := by
  intro s t rest hin haudio hfreq htheta h
  rw [step_cons hin, runInput_sample, sampleStep_eq, if_pos haudio] at h
  split_ifs at h
  · cases h
    rw [show s.voice.sampleValue = .exact 0 from ofSine_of_half_turn htheta _]
    exact ⟨rfl, hfreq, by simpa [Voice.advance, hfreq] using nextTheta_half_rate htheta⟩
  · cases h
    exact ⟨rfl, hfreq, htheta⟩

end Sys2Proof.Machine
end

section
/-! Simulations: a relation between two states that the primitive updates keep is kept by every bus operation, FRAME
step and input (spec/20_memory.md R55; spec/43_port_ops.md R225). -/

namespace Sys2Proof.Machine

open Sys2Proof.Stated

/-- f neither reads nor writes the parameters, the trace, the output and the voice. -/
def IgnoresBackends (f : State → State) : Prop :=
  ∀ (u : State) (p : Config.Params) (d : List Degrade) (out : List Event) (v : Voice),
    f { u with params := p, degrades := d, out := out, voice := v } =
      { f u with params := p, degrades := d, out := out, voice := v }

section
variable {f : State → State}

theorem IgnoresBackends.params (hf : IgnoresBackends f) (s : State) : (f s).params = s.params :=
  (congrArg State.params (hf s s.params s.degrades s.out s.voice) :)

theorem IgnoresBackends.out (hf : IgnoresBackends f) (s : State) : (f s).out = s.out :=
  (congrArg State.out (hf s s.params s.degrades s.out s.voice) :)

theorem IgnoresBackends.voice (hf : IgnoresBackends f) (s : State) : (f s).voice = s.voice :=
  (congrArg State.voice (hf s s.params s.degrades s.out s.voice) :)

theorem IgnoresBackends.setVoice (hf : IgnoresBackends f) (s : State) (v : Voice) :
    f { s with voice := v } = { f s with voice := v } := by
  have hkept : { f s with voice := v } =
      { f s with params := s.params, degrades := s.degrades, out := s.out, voice := v } :=
    congrArg (fun u : State => { u with voice := v }) (hf s s.params s.degrades s.out s.voice)
  exact (hf s s.params s.degrades s.out v).trans hkept.symm

end

theorem ignoresBackends_drawKey : IgnoresBackends fun s => s.drawKey.2 := fun _ _ _ _ _ => by simp only [drawKey_eq]

theorem ignoresBackends_takeInput : IgnoresBackends fun s => s.takeInput.2 := fun _ _ _ _ _ => by
  simp only [takeInput_eq]

/-- Two related states agree on everything but the backends' readiness, the trace, the output and the voice, and the
primitive updates keep them related. -/
structure Simulation (R : State → State → Prop) : Prop where
  agree : ∀ {s s'}, R s s' → ∃ p d out v, p.nSamples = s.params.nSamples ∧
    s' = { s with params := p, degrades := d, out := out, voice := v }
  update : ∀ {s s'}, R s s' → ∀ f, IgnoresBackends f → R (f s) (f s')
  degrade : ∀ {s s'}, R s s' → ∀ d, R (s.degrade d) (s'.degrade d)
  emit : ∀ {s s'}, R s s' → ∀ e, e.isAudio = false → R (s.emit e) (s'.emit e)
  emitAudio : ∀ {s s'}, R s s' → ∀ e, e.isAudio = true → R (s.emitAudio e) (s'.emitAudio e)
  emitVisual : ∀ {s s'}, R s s' → ∀ e, e.isAudio = false → R (s.emitVisual e) (s'.emitVisual e)
  trigger : ∀ {s s'}, R s s' → ∀ f T vol, R (s.trigger f T vol) (s'.trigger f T vol)

namespace Simulation

variable {R : State → State → Prop} (sim : Simulation R) {s s' : State} (h : R s s')
include sim h

/-! What the two states agree on. -/

theorem nSamples : s'.params.nSamples = s.params.nSamples := by obtain ⟨_, _, _, _, hn, rfl⟩ := sim.agree h; exact hn
theorem binding (k : Key) : s'.binding k = s.binding k := by obtain ⟨_, _, _, _, -, rfl⟩ := sim.agree h; rfl
theorem cursor : s'.cursor = s.cursor := by obtain ⟨_, _, _, _, -, rfl⟩ := sim.agree h; rfl
theorem drawn : s'.drawn = s.drawn := by obtain ⟨_, _, _, _, -, rfl⟩ := sim.agree h; rfl
theorem inputs : s'.inputs = s.inputs := by obtain ⟨_, _, _, _, -, rfl⟩ := sim.agree h; rfl
theorem keyAnswers : s'.keyAnswers = s.keyAnswers := by obtain ⟨_, _, _, _, -, rfl⟩ := sim.agree h; rfl

theorem pendingFrequency : s'.pendingFrequency = s.pendingFrequency := by
  obtain ⟨_, _, _, _, -, rfl⟩ := sim.agree h
  rfl

theorem expiringInOrder : s'.expiringInOrder = s.expiringInOrder := by
  obtain ⟨_, _, _, _, -, rfl⟩ := sim.agree h
  rfl

/-! The shared operations. -/

theorem answer (w : Word) : R (s.answer w) (s'.answer w) := sim.update h (·.answer w) fun _ _ _ _ _ => rfl
theorem acknowledge : R s.acknowledge s'.acknowledge := sim.update h State.acknowledge fun _ _ _ _ _ => rfl

theorem setCursor (c : Option Key) : R (s.setCursor c) (s'.setCursor c) :=
  sim.update h (·.setCursor c) fun _ _ _ _ _ => rfl

theorem assignFrequency (k : Key) (hz : Word) : R (s.assignFrequency k hz) (s'.assignFrequency k hz) :=
  sim.update h (·.assignFrequency k hz) fun _ _ _ _ _ => rfl

theorem assignSample (k : Key) (id : Word) : R (s.assignSample k id) (s'.assignSample k id) :=
  sim.update h (·.assignSample k id) fun _ _ _ _ _ => rfl

theorem assignMode (k : Key) (m : Mode) (wt : WaveType) : R (s.assignMode k m wt) (s'.assignMode k m wt) :=
  sim.update h (·.assignMode k m wt) fun _ _ _ _ _ => rfl

theorem assignColor (k : Key) (c : BitVec 8) : R (s.assignColor k c) (s'.assignColor k c) :=
  sim.emitVisual (sim.update h (fun u => u.setBinding k { u.binding k with color := some c }) fun _ _ _ _ _ => rfl)
    _ rfl

theorem triggerHighlight (k : Key) (n : Nat) : R (s.triggerHighlight k n) (s'.triggerHighlight k n) :=
  sim.emitVisual (sim.update h (·.setTimer k (some n)) fun _ _ _ _ _ => rfl) _ rfl

theorem degradeIf (b : Bool) (d : Degrade) : R (s.degradeIf b d) (s'.degradeIf b d) := by
  unfold State.degradeIf
  split_ifs
  · exact sim.degrade h d
  · exact h

theorem playSample (id : Word) : R (s.playSample id) (s'.playSample id) := by
  unfold State.playSample
  rw [sim.nSamples h]
  split_ifs
  · exact sim.emitAudio h _ rfl
  · exact sim.trigger (sim.degrade h _) ..

theorem keySound (k : Key) : R (s.keySound k) (s'.keySound k) := by
  have hsample : R (s.keySamplePart (s.binding k)) (s'.keySamplePart (s.binding k)) := by
    rw [keySamplePart_eq, keySamplePart_eq]
    cases soundSample (s.binding k) with
    | none => exact h
    | some id => exact sim.playSample h id
  rw [State.keySound, State.keySound, sim.binding h, keyFrequencyPart_eq, keyFrequencyPart_eq]
  cases soundFreq (s.binding k) with
  | none => exact hsample
  | some f => exact sim.trigger hsample ..

/-- The two-phase protocol keeps two states related when the port's assignment does (R110). -/
theorem twoPhase {assign : State → Key → Word → State} (hassign : ∀ k v, R (assign s k v) (assign s' k v))
    (w : Word) : R (s.twoPhase assign w) (s'.twoPhase assign w) := by
  unfold State.twoPhase
  rw [sim.cursor h]
  cases s.cursor with
  | none =>
    dsimp only
    split_ifs
    · exact sim.setCursor h _
    · exact sim.degrade h _
  | some k => exact sim.setCursor (hassign k w) none

/-- The host's draw is the same key. -/
theorem drawKey : s'.drawKey.1 = s.drawKey.1 ∧ R s.drawKey.2 s'.drawKey.2 := by
  rw [drawKey_fst, drawKey_fst, sim.drawn h, sim.keyAnswers h]
  exact ⟨rfl, sim.update h _ ignoresBackends_drawKey⟩

/-- The next input is the same one. -/
theorem takeInput : s'.takeInput.1 = s.takeInput.1 ∧ R s.takeInput.2 s'.takeInput.2 := by
  rw [takeInput_fst, takeInput_fst, sim.drawn h, sim.inputs h]
  exact ⟨rfl, sim.update h _ ignoresBackends_takeInput⟩

theorem unhighlightAll (ks : List Key) : R (s.unhighlightAll ks) (s'.unhighlightAll ks) := by
  unfold State.unhighlightAll
  induction ks generalizing s s' with
  | nil => exact h
  | cons k ks ih => exact ih (sim.emitVisual h _ rfl)

theorem frameStep : R s.frameStep s'.frameStep := by
  unfold State.frameStep
  rw [sim.expiringInOrder h]
  exact sim.unhighlightAll (sim.update h (fun u => { u with hl := tickAll u.hl, drawn := u.drawn + u.expiring.length })
    fun _ _ _ _ _ => rfl) _

/-- Every bus operation keeps two states related. -/
theorem exec {i : Instr} {t : State} (ht : Machine.exec i s = .next t) :
    ∃ t', Machine.exec i s' = .next t' ∧ R t t' := by
  cases i with
  | getkey =>
    cases ht
    obtain ⟨hkey, hdraw⟩ := sim.drawKey h
    refine ⟨_, rfl, ?_⟩
    rw [hkey]
    split_ifs
    · exact sim.answer hdraw 0
    · exact sim.answer (sim.triggerHighlight hdraw ..) _
  | playfreq f d w => cases ht; exact ⟨_, rfl, sim.acknowledge (sim.trigger (sim.degradeIf h ..) ..)⟩
  | playsmp id => cases ht; exact ⟨_, rfl, sim.acknowledge (sim.playSample h id)⟩
  | showkey k x => cases ht; exact ⟨_, rfl, sim.acknowledge (sim.keySound (sim.triggerHighlight h ..) _)⟩
  | cfgfreq w => cases ht; exact ⟨_, rfl, sim.acknowledge (sim.twoPhase h (sim.assignFrequency h) w)⟩
  | rdfreq => cases ht; exact ⟨_, rfl, sim.pendingFrequency h ▸ sim.answer h _⟩
  | cfgsmp w => cases ht; exact ⟨_, rfl, sim.acknowledge (sim.twoPhase h (sim.assignSample h) w)⟩
  | cfgcol w => cases ht; exact ⟨_, rfl, sim.acknowledge (sim.twoPhase h (fun _ _ => sim.assignColor h ..) w)⟩
  | smpcount => cases ht; exact ⟨_, rfl, sim.nSamples h ▸ sim.answer h _⟩
  | listsmp w => cases ht; exact ⟨_, rfl, sim.acknowledge (sim.emit h _ rfl)⟩
  | playcomb f id => cases ht; exact ⟨_, rfl, sim.acknowledge (sim.trigger (sim.playSample h _) ..)⟩
  | setmode k m w => cases ht; exact ⟨_, rfl, sim.acknowledge (sim.assignMode (sim.degradeIf h ..) ..)⟩
  | unknownRd a => cases ht; exact ⟨_, rfl, sim.answer (sim.degrade h _) 0⟩
  | unknownWr a w => cases ht; exact ⟨_, rfl, sim.acknowledge (sim.degrade h _)⟩

/-- Every step keeps two states related when the SAMPLE step does (R18). -/
theorem step (hsample : ∀ {u u'}, R u u' → R u.sampleStep u'.sampleStep) {t : State}
    (ht : Machine.step s = .next t) : ∃ t', Machine.step s' = .next t' ∧ R t t' := by
  obtain ⟨hinput, htaken⟩ := sim.takeInput h
  rw [Machine.step] at ht ⊢
  rw [hinput]
  cases hi : s.takeInput.1 with
  | bus tr => rw [hi] at ht; exact sim.exec htaken ht
  | sample => rw [hi] at ht; cases ht; exact ⟨_, rfl, hsample htaken⟩
  | frame => rw [hi] at ht; cases ht; exact ⟨_, rfl, sim.frameStep htaken⟩

/-- Every run keeps two states related when the SAMPLE step does. -/
theorem run (hsample : ∀ {u u'}, R u u' → R u.sampleStep u'.sampleStep) {n : Nat} {t : State}
    (ht : Sys2Proof.core.run n s = .next t) : ∃ t', Sys2Proof.core.run n s' = .next t' ∧ R t t' := by
  induction n generalizing s s' with
  | zero =>
    cases ht
    exact ⟨s', rfl, h⟩
  | succ n ih =>
    obtain ⟨u, hu⟩ := step_next s
    obtain ⟨u', hu', hnext⟩ := sim.step h hsample hu
    rw [run_succ hu] at ht
    rw [run_succ hu']
    exact ih hnext ht

end Simulation

end Sys2Proof.Machine
end

section
/-! Two runs that differ in the voice, or in AUDIO_READY, as simulations (spec/10_state.md R26, R33;
spec/60_exceptions.md R265). -/

namespace Sys2Proof.Machine

/-- The two states differ by the voice alone, v₀ in s and v in s', or not at all. -/
def SameButVoice (v₀ v : Voice) (s s' : State) : Prop := (s.voice = v₀ ∧ s' = { s with voice := v }) ∨ s' = s

/-- An update that either keeps the voice, and does not look at it, or overwrites it keeps the relation. -/
theorem SameButVoice.of_keeps_or_overwrites {v₀ v : Voice} {s s' : State} {f : State → State}
    (h : SameButVoice v₀ v s s')
    (hf : (f { s with voice := v } = { f s with voice := v } ∧ (f s).voice = s.voice) ∨
      f { s with voice := v } = f s) :
    SameButVoice v₀ v (f s) (f s') := by
  obtain ⟨hv, rfl⟩ | rfl := h
  · obtain ⟨hkeeps, hvoice⟩ | hoverwrites := hf
    · exact .inl ⟨hvoice.trans hv, hkeeps⟩
    · exact .inr hoverwrites
  · exact .inr rfl

/-- No primitive update reads the voice (R26, R33). -/
theorem simulation_sameButVoice (v₀ v : Voice) : Simulation (SameButVoice v₀ v) where
  agree {s s'} h := by
    obtain ⟨-, rfl⟩ | rfl := h
    · exact ⟨s.params, s.degrades, s.out, v, rfl, rfl⟩
    · exact ⟨_, _, _, _, rfl, rfl⟩
  update {s s'} h f hf := h.of_keeps_or_overwrites (.inl ⟨hf.setVoice s v, hf.voice s⟩)
  degrade h d := h.of_keeps_or_overwrites (f := (·.degrade d)) (.inl ⟨rfl, rfl⟩)
  emit h e _ := h.of_keeps_or_overwrites (f := (·.emit e)) (.inl ⟨rfl, rfl⟩)
  emitAudio {s s'} h e _ := h.of_keeps_or_overwrites (f := (·.emitAudio e)) (.inl (by
    simp only [emitAudio_eq, and_self]))
  emitVisual {s s'} h e _ := h.of_keeps_or_overwrites (f := (·.emitVisual e)) (.inl (by
    simp only [emitVisual_eq, and_self]))
  trigger {s s'} h f T vol := h.of_keeps_or_overwrites (f := (·.trigger f T vol)) (by
    simp only [trigger_eq]
    cases s.params.audioReady with
    | false => exact .inl ⟨rfl, rfl⟩
    | true => exact .inr rfl)

/-- Settles O35: the simulation at the end of the operation, read off. -/
theorem noOperationReadsTheVoice : Obligations.NoOperationReadsTheVoice := by
  intro i s t v h
  obtain ⟨t', ht', ⟨hkept, rfl⟩ | rfl⟩ := (simulation_sameButVoice s.voice v).exec (.inl ⟨rfl, rfl⟩) h
  · exact ⟨v, ht', .inl ⟨hkept, rfl⟩⟩
  · exact ⟨t'.voice, ht', .inr rfl⟩

/-- s, with the audio backend, and s', without it, differ by the audio events emitted since the output o, by the trace,
and by the voice, which is v₀ in s'. -/
structure SameButAudio (o : List Event) (v₀ : Voice) (s s' : State) : Prop where
  ready : s.params.audioReady = true
  same : ∃ es d, s.out = o ++ es ∧ s' = { s with
    params := { s.params with audioReady := false }
    degrades := d
    voice := v₀
    out := o ++ es.filter fun e => !e.isAudio }

namespace SameButAudio

variable {o : List Event} {v₀ : Voice} {s s' : State}

/-- Without the audio backend a run starts from the same state otherwise. -/
theorem start (hready : s.params.audioReady = true) :
    SameButAudio s.out s.voice s { s with params := { s.params with audioReady := false } } :=
  ⟨hready, [], s.degrades, (List.append_nil _).symm, by simp⟩

section
variable (h : SameButAudio o v₀ s s')
include h

theorem visualReady : s'.params.visualReady = s.params.visualReady := by obtain ⟨-, -, -, -, rfl⟩ := h; rfl
theorem not_ready : ¬ s'.params.audioReady = true := by obtain ⟨-, -, -, -, rfl⟩ := h; exact Bool.false_ne_true

theorem update (f : State → State) (hf : IgnoresBackends f) : SameButAudio o v₀ (f s) (f s') := by
  obtain ⟨hready, es, tr, hes, rfl⟩ := h
  exact ⟨hf.params s ▸ hready, es, tr, (hf.out s).trans hes, by rw [hf, hf.params]⟩

theorem degrade (d : Degrade) : SameButAudio o v₀ (s.degrade d) (s'.degrade d) := by
  obtain ⟨hready, es, tr, hes, rfl⟩ := h
  exact ⟨hready, es, tr ++ [d], hes, rfl⟩

/-- What only s' traces is no difference to tell. -/
theorem degrade_right (d : Degrade) : SameButAudio o v₀ s (s'.degrade d) := by
  obtain ⟨hready, es, tr, hes, rfl⟩ := h
  exact ⟨hready, es, tr ++ [d], hes, rfl⟩

/-- Only s has a voice that sounds. -/
theorem setVoice_left (v : Voice) : SameButAudio o v₀ (s.setVoice v) s' := by
  obtain ⟨hready, es, tr, hes, rfl⟩ := h
  exact ⟨hready, es, tr, hes, rfl⟩

theorem emit {e : Event} (he : e.isAudio = false) : SameButAudio o v₀ (s.emit e) (s'.emit e) := by
  obtain ⟨hready, es, tr, hes, rfl⟩ := h
  refine ⟨hready, es ++ [e], tr, by rw [emit_out, hes, List.append_assoc], ?_⟩
  simp [State.emit, he]

/-- An audio event reaches s only. -/
theorem emit_left {e : Event} (he : e.isAudio = true) : SameButAudio o v₀ (s.emit e) s' := by
  obtain ⟨hready, es, tr, hes, rfl⟩ := h
  refine ⟨hready, es ++ [e], tr, by rw [emit_out, hes, List.append_assoc], ?_⟩
  simp [State.emit, he]

theorem emitAudio {e : Event} (he : e.isAudio = true) : SameButAudio o v₀ (s.emitAudio e) (s'.emitAudio e) := by
  rw [State.emitAudio, State.emitAudio, if_pos h.ready, if_neg h.not_ready]
  exact (h.emit_left he).degrade_right _

theorem emitVisual {e : Event} (he : e.isAudio = false) : SameButAudio o v₀ (s.emitVisual e) (s'.emitVisual e) := by
  unfold State.emitVisual
  rw [h.visualReady]
  split_ifs
  · exact h.emit he
  · exact h.degrade _

theorem trigger (f : Rat) (T : Nat) (vol : Rat) : SameButAudio o v₀ (s.trigger f T vol) (s'.trigger f T vol) := by
  rw [State.trigger, State.trigger, if_pos h.ready, if_neg h.not_ready]
  exact (h.setVoice_left _).degrade_right _

/-- A SAMPLE step is one of s only (R265; log 11). -/
theorem sampleStep : SameButAudio o v₀ s.sampleStep s'.sampleStep := by
  rw [State.sampleStep, State.sampleStep, if_pos h.ready, if_neg h.not_ready]
  split_ifs
  · exact (h.emit_left rfl).setVoice_left _
  · exact h.emit_left rfl

end

theorem simulation (o : List Event) (v₀ : Voice) : Simulation (SameButAudio o v₀) where
  agree {s s'} h := by
    obtain ⟨-, -, d, -, rfl⟩ := h
    exact ⟨{ s.params with audioReady := false }, d, _, v₀, rfl, rfl⟩
  update h := h.update
  degrade h := h.degrade
  emit h _ := h.emit
  emitAudio h _ := h.emitAudio
  emitVisual h _ := h.emitVisual
  trigger h := h.trigger

end SameButAudio

/-- Settles O54: the simulation at the end of the run, read off. -/
theorem audioReadinessOnlyDropsAudio : Obligations.AudioReadinessOnlyDropsAudio := by
  intro s t n hready ht
  obtain ⟨t', ht', -, es, d, hes, rfl⟩ :=
    (SameButAudio.simulation s.out s.voice).run (SameButAudio.start hready) SameButAudio.sampleStep ht
  exact ⟨es, d, hes, ht'⟩

end Sys2Proof.Machine
end
